-- ==== Sys2Proof/Word.lean ====
section
/-! DEFINITION. The word types of the T6416 model: a byte, a byte string and a sparse table.
Bit 0 is the least significant bit (R7); the helpers that read fields out of these stand in
`Sys2Proof/Machine/Bits.lean`. -/

namespace Sys2Proof

/-- One byte of a byte-laid format (R7). -/
abbrev Byte := BitVec 8

/-- A byte string, byte 0 first (R7: lowest address, or first byte on the wire). -/
abbrev Bytes := List Byte

/-- A sparse table: pairs of a key and a value, keys strictly rising, no entry equal to the
table's default. `Sys2Proof/Machine/Tbl.lean` reads and writes it. -/
abbrev Tbl (α : Type) := List (Nat × α)

end Sys2Proof
end

