-- ==== Sys2Proof/Syntax.lean ====
section
/-! DEFINITION. The commands of the block: one constructor of `Instr` for each row of
`spec/opcode_table.json`, in the table's order, with the operands the event carries from
outside. The rows have no fields of their own, so the operands are read off the rule each row
names. Ports, host links and the like are `Fin`s, so a command can only name what exists. -/

namespace Sys2Proof

/-- Port P0 to P15. -/
abbrev PortId := Fin 16
/-- Host link H0 to H3. -/
abbrev HostId := Fin 4
/-- A function of a host link: 0 the PF, k the VF k (R205). -/
abbrev FnId := Fin 65
/-- Clock domain d of R425. -/
abbrev DomainId := Fin 25

/-- What a PCIe read or AtomicOp brought back (R158). -/
inductive DmaResult where
  /-- The data read, or the old value of an AtomicOp, little-endian. -/
  | data (bytes : Bytes)
  /-- Unsupported Request, Completer Abort, poisoned data or a failed translation. -/
  | error
  /-- A PCIe completion timeout (the CPL_TIMEOUT source of R393 as well). -/
  | timeout
  deriving DecidableEq, Repr

/-- How a pantry fill ended (R129, R154). -/
inductive FillResult where
  | good
  | badCheck
  | dmaError
  deriving DecidableEq, Repr

/-- What a scrub read found (R398). -/
inductive ScrubFinding where
  | clean
  | oneBit
  | uncorrectable
  deriving DecidableEq, Repr

/-- Who accesses a register: a function through its BAR0, the service processor (R221, R241), or the
host through a function's configuration space (R202). -/
inductive Accessor where
  | fn (hl : HostId) (f : FnId)
  | sp
  /-- Address 0 is AtomicOp Requester Enable, 1 PASID Enable, 2 MSI-X Enable, 3 the Function Mask, 4
  10-Bit Tag Requester Enable, 5 the power state, 6 and 7 Max Read Request Size and Max Payload Size in
  bytes, 8 NumVFs, 9 VF Enable; 16 to 26 are the fixed items of R205 and R202: Vendor ID, Device ID,
  Revision ID, class code, bytes of BAR0, MSI-X vectors, TotalVFs, InitialVFs, First VF Offset, VF Stride
  and Invalidate Queue Depth (log 20). -/
  | cfg (hl : HostId) (f : FnId)
  deriving DecidableEq, Repr

/-- What a gate request is about: a clock domain (R431) or a switched power domain (R447). -/
inductive GateTarget where
  | clock (d : DomainId)
  | power (element : Fin 149)
  deriving DecidableEq, Repr

/-- The transport an IDP request arrives on (R354). -/
inductive IdpTransport where
  | t1s
  | i3c
  | mailbox (hl : HostId)
  deriving DecidableEq, Repr

/-- The frame around an IDP message on 10BASE-T1S (R351): destination, source, whether a VLAN
tag stood in front, the EtherType and the payload. -/
structure T1sFrame where
  dst : Nat
  src : Nat
  vlan : Bool
  etherType : Nat
  payload : Bytes
  deriving DecidableEq, Repr

/-- An IDP request as it arrives (R351 to R353). An MCTP message carries its source endpoint ID,
its type byte with the integrity-check bit, and the body after the type byte. -/
inductive IdpArrival where
  | t1s (frame : T1sFrame)
  | i3c (srcEid : Nat) (typeByte : Byte) (body : Bytes)
  deriving DecidableEq, Repr

/-- The MCTP control messages the device answers (R352). -/
inductive MctpControl where
  | setEndpointId (eid : Nat)
  | getEndpointId
  | getVersionSupport
  | getMessageTypeSupport
  | getVendorDefinedSupport
  | other (code : Nat)
  deriving DecidableEq, Repr

/-- What brought a chip reset about from outside a command of its own (R449, R451). -/
inductive ChipResetCause where
  | chipResetWrite
  | faultReaction
  | lifeCycleChange
  | spWatchdog
  deriving DecidableEq, Repr

/-- The straps as they stand 1 µs before the rising edge of PORST_N (R443, R492, R493). -/
structure Straps where
  bootMode : Fin 4
  pcieBif : Fin 4
  testMode : Bool
  deriving DecidableEq, Repr

/-- What one AVSBus exchange of the governor brought (R436 to R438). -/
inductive AvsResult where
  /-- The rail reported good after so many failed attempts, with the voltage in mV and the current in mA read
  back. -/
  | good (retries : Fin 3) (mv : Nat) (ma : Nat)
  /-- All three attempts failed. -/
  | failed
  deriving DecidableEq, Repr

/-- The test access port's instructions (R482, R432, R454). -/
inductive TapInstr where
  | bypass
  | idcode
  | samplePreload
  | extest
  | releaseDebugHold
  /-- Any other instruction code: part of the debug instruction set, which the manual names only. -/
  | debug (code : Nat)
  deriving DecidableEq, Repr

/-- A monitored rail of R440. -/
inductive Rail where
  | vddCore | vddSram | vddSda | vddSdh | vddPcie075 | vddPcie120 | vddIo | vddAon
  deriving DecidableEq, Repr

/-- What the FEC of a port tells with a flit: `ok` is false when an uncorrectable codeword overlaps the flit
(R63), and `corr` has, lane by lane, the symbols corrected since the flit before (R409). -/
structure Fec where
  ok : Bool
  corr : List Nat
  deriving DecidableEq, Repr

/-- Whose requests an invalidation is about: those of a function that carry `pasid`, or none (R202, R204). -/
structure AtsScope where
  fn : FnId
  pasid : Option (BitVec 20)
  deriving DecidableEq, Repr

/-- The commands of the block. -/
inductive Instr where
  -- the link layer
  /-- R69: 256 bytes arrive on port `p`, with what the FEC has found. -/
  | flitReceived (p : PortId) (raw : Bytes) (fec : Fec)
  | dataFlitSend (p : PortId)
  | replayTimeout (p : PortId)
  | heartbeat (p : PortId)
  | linkDead (p : PortId)
  /-- R80: row `row` of R61 trained on the lanes of `lanes`. -/
  | modeTrained (p : PortId) (row : Fin 9) (lanes : Fin 16)
  | trainingRestart (p : PortId)
  | capxSend (p : PortId)
  | exchangeTimeout (p : PortId)
  | lockLost (p : PortId)
  | retrainComplete (p : PortId)
  | retrainLimit (p : PortId)
  | failedTimeout (p : PortId)
  | laneFail (p : PortId) (lane : Fin 4)
  | timeFlitSend (p : PortId)
  | timeParentReselect
  /-- R502: a rising edge on TIME_PPS_IN whose high level lasts `highNs`. -/
  | ppsEdge (highNs : Nat)
  | ppsOut
  -- routing and injection
  /-- R38: the packet at the head of VC `vc` of input `input`; input 16 is the local
  injection point. -/
  | packetForward (input : Fin 17) (vc : Fin 16)
  /-- R102: the next packet of operation `op`. -/
  | reqInject (op : Nat)
  | heatAge (ctx : Nat) (path : Fin 4)
  | pathHoldoff (ctx : Nat) (path : Fin 4)
  | gatherWait (tree : Fin 4096) (key : BitVec 32)
  -- packets delivered at this node: `i` names the packet among those waiting
  | sendEager (i : Nat)
  | sendRts (i : Nat)
  | putPacket (i : Nat)
  | getReq (i : Nat)
  | getResp (i : Nat)
  | atomicPacket (i : Nat)
  | atomicResp (i : Nat)
  | mcastPut (i : Nat)
  | ack (i : Nat)
  | nak (i : Nat)
  | rdvFin (i : Nat)
  | unroutableReport (i : Nat)
  | deliveryReport (i : Nat)
  -- transport timers and completions from the host link
  | ackDelay (ctx : Nat)
  | retransmissionTimeout (ctx : Nat)
  | rnrWait (ctx : Nat) (psn : BitVec 32)
  | atomicHold (ctx : Nat) (psn : BitVec 32)
  | rdvWait (ctx : Nat) (msn : BitVec 32)
  /-- R130: the fill of a context (`region` false) or of a region entry completes. -/
  | pantryFillDone (region : Bool) (key : Nat) (result : FillResult)
  | hostDmaCompletion (tag : Nat) (result : DmaResult)
  | overflowCopyDone (ctx : Nat) (msn : BitVec 32) (ok : Bool)
  -- rings
  /-- R251: the poll read of queue `q` returned these entries, or failed (`none`). -/
  | poll (q : Nat) (entries : Option (List Bytes))
  | eqFreeRead (q : Nat) (entries : Option (List Bytes))
  -- the descriptor at the head of the taken descriptors of queue `q` is issued (R255)
  | nop (q : Nat)
  | send (q : Nat)
  | put (q : Nat)
  | putMcast (q : Nat)
  | get (q : Nat)
  | atomic (q : Nat)
  | localFence (q : Nat)
  | postRecv (q : Nat)
  | postOverflow (q : Nat)
  | pour (q : Nat)
  -- pours: the armed pour of mould index `m`
  | pourArm (m : Fin 1024)
  | mouldNopStep (m : Fin 1024)
  | copyIn (m : Fin 1024)
  | copyOut (m : Fin 1024)
  | mouldSendStep (m : Fin 1024)
  | recv (m : Fin 1024)
  | combine (m : Fin 1024)
  | gather (m : Fin 1024)
  | mcast (m : Fin 1024)
  | stepComplete (m : Fin 1024) (step : Nat)
  | mouldData (i : Nat)
  | gatherRecordGrant (input : Fin 17) (vc : Fin 16)
  | breakMsg (i : Nat)
  | pourWatchdog (m : Fin 1024)
  | mouldCheckDone (m : Fin 1024)
  -- the command block: a write of the code to CMD_CODE (R234); arguments stand in CMD_ARG
  | pdCreate (hl : HostId) (f : FnId)
  | pdDestroy (hl : HostId) (f : FnId)
  | epCreate (hl : HostId) (f : FnId)
  | epDestroy (hl : HostId) (f : FnId)
  | epMcastBind (hl : HostId) (f : FnId)
  | ctxCreate (hl : HostId) (f : FnId)
  | ctxConnect (hl : HostId) (f : FnId)
  | ctxDestroy (hl : HostId) (f : FnId)
  | ctxQuery (hl : HostId) (f : FnId)
  | regRegister (hl : HostId) (f : FnId)
  | regDeregister (hl : HostId) (f : FnId)
  | mctxCreate (hl : HostId) (f : FnId)
  | mctxDestroy (hl : HostId) (f : FnId)
  | recvCancel (hl : HostId) (f : FnId)
  | qCreate (hl : HostId) (f : FnId)
  | pantryInstall (hl : HostId) (f : FnId)
  | pantryRemove (hl : HostId) (f : FnId)
  | dumpStart (hl : HostId) (f : FnId)
  | dumpStop (hl : HostId) (f : FnId)
  | ctrProgram (hl : HostId) (f : FnId)
  | traceStart (hl : HostId) (f : FnId)
  | traceStop (hl : HostId) (f : FnId)
  | stepStart (hl : HostId) (f : FnId)
  | stepStop (hl : HostId) (f : FnId)
  | commandCompletion (hl : HostId) (f : FnId)
  -- lock cells: a write of `w` to LOCK_CELL `cell` whose OP field is the operation's
  | acquire (hl : HostId) (f : FnId) (cell : Fin 256) (w : BitVec 64)
  | tryLock (hl : HostId) (f : FnId) (cell : Fin 256) (w : BitVec 64)
  | release (hl : HostId) (f : FnId) (cell : Fin 256) (w : BitVec 64)
  | cancel (hl : HostId) (f : FnId) (cell : Fin 256) (w : BitVec 64)
  | claim (hl : HostId) (f : FnId) (cell : Fin 256) (w : BitVec 64)
  | forceRelease (hl : HostId) (f : FnId) (cell : Fin 256) (w : BitVec 64)
  | setMode (hl : HostId) (f : FnId) (cell : Fin 256) (w : BitVec 64)
  -- registers
  | update (who : Accessor) (groups : BitVec 32)
  | qWake (hl : HostId) (f : FnId) (value : BitVec 32)
  | tgRebind (hl : HostId) (value : BitVec 32)
  | mailboxGo (hl : HostId) (value : BitVec 32)
  /-- R12, R223: a write of `size` bytes of `value` at `addr`. -/
  | registerWrite (who : Accessor) (addr : Nat) (size : Nat) (value : BitVec 64)
  | reservedRead (who : Accessor) (addr : Nat) (size : Nat)
  | clkForceGo (d : DomainId) (src : Fin 4)
  | holdSet (d : DomainId)
  | holdClr (d : DomainId)
  | fltForce (b : Fin 240) (bits : BitVec 64)
  -- the dictionary: the request at the head of those recorded is executed (R359)
  | idpRead
  | idpWrite
  | idpInfo
  | segOpen
  | segData
  | segCommit
  | segAbort
  | xferIdleTimeout (handle : Nat)
  | doeAttestRequest (hl : HostId) (request : Bytes)
  | lifeCycleReset
  | chipReset (cause : ChipResetCause)
  -- faults, SRAM and regions
  | faultSourceRaised (b : Fin 240) (src : Fin 64) (unit : Nat) (detail : BitVec 64)
  | handshakeStall (b : Fin 240) (unit : Nat) (stage : BitVec 64)
  | scrub (g : Fin 48) (bank : Fin 33) (row : Nat) (word : Nat) (found : ScrubFinding)
  | regionRetire (r : Fin 4)
  -- counters
  | bwWindowEnd
  | dumpPass (hl : HostId) (f : FnId)
  -- clocks and tempo
  | pllReferenceLoss (k : Fin 14)
  | pllLock (k : Fin 14)
  | clockSwitchDone (d : DomainId)
  /-- R428: the monitor window of domain `d` closes with `edges` edges; 25 is the SOSC monitor. -/
  | clockMonitorWindow (d : Fin 26) (edges : Nat)
  | gateQuiescence (t : GateTarget)
  | gateTimeout (t : GateTarget)
  | tempoMeter (r : Fin 4) (count : Nat)
  | governorIteration (avs : AvsResult)
  -- power, resets and start-up
  | powerOnReset (rail : Rail)
  | porstAssert (lowNs : Nat)
  | porstRelease (straps : Straps)
  | domainRampDone (element : Fin 149)
  | portPowerOff (p : PortId)
  | perstAssert (hl : HostId)
  | perstRelease (hl : HostId)
  | hotReset (hl : HostId)
  | pfFlr (hl : HostId)
  | vfFlr (hl : HostId) (vf : FnId)
  | vfEnable (hl : HostId) (count : FnId)
  | flrComplete (hl : HostId) (f : FnId)
  /-- R204: the host invalidates the translation of `len` bytes at `addr` for the requests
  of `f`; `remapped` says whether it gives a fresh translation afterwards. -/
  | atsInvalidation (hl : HostId) (f : AtsScope) (addr : Nat) (len : Nat) (remapped : Bool)
  | fillFlitSend (p : PortId)
  | oosFlitSend (p : PortId)
  | idpRequestReceived (arrival : IdpArrival)
  | mctpControlMessage (msg : MctpControl)
  | entdaa (address : Fin 128)
  | dlActive (hl : HostId) (lanes : Nat) (rate : Nat)
  | configReady (hl : HostId)
  | vfReady (hl : HostId) (vf : FnId)
  | railsInRange (straps : Straps)
  | bridgePowerOff (n : Fin 4)
  | trstN (high : Bool)
  | tapInstruction (i : TapInstr)
  | lowerHalfRead (who : Accessor) (addr : Nat)
  deriving DecidableEq, Repr

end Sys2Proof
end

