-- ==== Sys2Proof/Config.lean ====
section
/-! DEFINITION. What an implementation fixes and the manual leaves open: free values. Each is an
opaque constant with no body, applied to a count that the step reads and advances or to what the
value depends on, so a statement about the model holds for every value. -/

namespace Sys2Proof.Config

/-- A free choice: the count, and the number of things to choose from. Home regions (R20),
crossbar slices (R21), engines of a pour, pool words (R150). Log 4. -/
opaque freeNat : Nat → Nat → Nat

/-- A draw of the device's random source (R124). Log 5. -/
opaque randomWord : Nat → BitVec 32

/-- A byte the manual leaves undefined: SRAM no one has written since it last changed owner where
no rule zeroes it, and slot space after a break (R295). Log 6. -/
opaque freeByte : Nat → Byte

/-- A byte of the header of the firmware image the part is delivered with (R463). Log 22. -/
opaque shippedByte : Nat → Byte

/-- How the persistent object store is laid out for `CONFIG_HASH`: a function of its objects, fences and
reaction masks (R471). Log 23. -/
opaque storeBytes : List (Nat × Option Nat) → List (Nat × Nat) → List (Nat × Nat) → List Byte

/-- The vendor root that the image the part is delivered with is signed under (R463). Log 22. -/
opaque shippedRoot : Nat

/-- The version and the manufacturer identity in the IDCODE, of which the manual gives the part number
alone. Log 49. -/
opaque idcodeFree : Nat

/-- A bit that a boundary cell shifts out. Log 49. -/
opaque boundaryBit : Nat → Bool

end Sys2Proof.Config
end

