-- ==== Sys2Proof/Machine/Bits.lean ====
section
/-! DEFINITION. Bit fields, little-endian fields of byte strings (R7), signed numbers and the
CRC-32 of R66. -/

namespace Sys2Proof.Machine

/-- Bits [msb:lsb] of `n` (R7). -/
def bits (n msb lsb : Nat) : Nat := n / 2 ^ lsb % 2 ^ (msb + 1 - lsb)

/-- Bit `i` of `n`. -/
def bit (n i : Nat) : Bool := n.testBit i

/-- 1 or 0. -/
def b2n (b : Bool) : Nat := if b then 1 else 0

/-- `n` with bit `i` set to `v`. -/
def setBit (n i : Nat) (v : Bool) : Nat :=
  if n.testBit i = v then n else if v then n + 2 ^ i else n - 2 ^ i

/-- `n` with bits [msb:lsb] replaced by `v`. -/
def setBits (n msb lsb v : Nat) : Nat :=
  n - bits n msb lsb * 2 ^ lsb + v % 2 ^ (msb + 1 - lsb) * 2 ^ lsb

/-- The bit numbers below `w` that are set in `n`, rising. -/
def bitList (w n : Nat) : List Nat := (List.range w).filter (bit n)

/-- The number of bits set below `w`. -/
def popCount (w n : Nat) : Nat := (bitList w n).length

/-- A byte string as a little-endian number. -/
def leNat : Bytes → Nat
  | [] => 0
  | b :: t => b.toNat + 256 * leNat t

/-- `k` bytes of `n`, little-endian. -/
def toLe : Nat → Nat → Bytes
  | 0, _ => []
  | k + 1, n => BitVec.ofNat 8 n :: toLe k (n / 256)

/-- `k` zero bytes. -/
def zeros (k : Nat) : Bytes := List.replicate k 0

/-- The `len`-byte little-endian field at byte offset `off`; bytes past the end read as zero. -/
def fld (bs : Bytes) (off len : Nat) : Nat := leNat ((bs.drop off).take len)

/-- The bytes `off` to `off + len - 1`, padded with zeros. -/
def slice (bs : Bytes) (off len : Nat) : Bytes :=
  let t := (bs.drop off).take len
  t ++ zeros (len - t.length)

/-- `bs` with `v` written from byte `off` on; `bs` is at least that long. -/
def patch (bs : Bytes) (off : Nat) (v : Bytes) : Bytes :=
  bs.take off ++ v ++ bs.drop (off + v.length)

/-- All bytes are zero. -/
def allZero (bs : Bytes) : Bool := bs.all (· == 0)

/-- The two's complement reading of a `w`-bit number. -/
def signed (w n : Nat) : Int := if n.testBit (w - 1) then (n : Int) - 2 ^ w else n

/-- A whole number of sixteen-byte grains that holds `n` bytes. -/
def grainsOf (n : Nat) : Nat := (n + 15) / 16

/-- `n` rounded up to a multiple of `m`. -/
def roundUp (n m : Nat) : Nat := (n + m - 1) / m * m

/-- One step of the bit-reflected CRC-32 with polynomial 0x04C1_1DB7 (R66). -/
def crcBit (c : BitVec 32) : BitVec 32 :=
  if c.getLsbD 0 then (c >>> 1) ^^^ 0xEDB88320#32 else c >>> 1

/-- The CRC register after one more byte. -/
def crcByte (c : BitVec 32) (b : Byte) : BitVec 32 :=
  Nat.repeat crcBit 8 (c ^^^ b.setWidth 32)

/-- The CRC-32 of R66: initial value all ones, least significant bit first, complemented. -/
def crc32 (bs : Bytes) : BitVec 32 := ~~~(bs.foldl crcByte 0xFFFFFFFF#32)

/-- Sequence arithmetic modulo 2^16: how far `a` lies ahead of `b` (R68). -/
def ahead16 (a b : BitVec 16) : Nat := (a - b).toNat

/-- How far `a` lies ahead of `b` modulo 2^32 (R135). -/
def ahead32 (a b : BitVec 32) : Nat := (a - b).toNat

/-- The head of a list of pairs with key `k`. -/
def lookup (k : Nat) : List (Nat × α) → Option α
  | [] => none
  | (j, v) :: t => if j = k then some v else lookup k t

/-- The list with the value under `k` changed by `f`. -/
def update1 (k : Nat) (f : α → α) : List (Nat × α) → List (Nat × α)
  | [] => []
  | (j, v) :: t => if j = k then (j, f v) :: t else (j, v) :: update1 k f t

/-- The list without key `k`. -/
def erase1 (k : Nat) (t : List (Nat × α)) : List (Nat × α) := t.filter (fun e => !(e.1 == k))

/-- Element `i` of a list, or `d`. -/
def nth (d : α) (l : List α) (i : Nat) : α := l.getD i d

end Sys2Proof.Machine
end

