-- ==== Sys2Proof/Machine/Objects.lean ====
section
/-! DEFINITION. The dictionary object catalogue (R371 to R389): every index and sub-index with its
type, access code, rights, default and persistence. -/

namespace Sys2Proof.Machine

/-- Object types (R346), with the entry size of a streamed DOMAIN and the largest image of a
staged one (R360). -/
inductive ObjTy where
  | bool | u8 | u16 | u32 | u64 | i16 | i32 | str
  | streamed (size entry : Nat)
  | staged (max : Nat)
  | domain
  deriving DecidableEq, Repr

/-- Access codes of R347. -/
inductive ObjAcc where
  | ro | rw | wo
  deriving DecidableEq, Repr

/-- One catalogue row: `count` instances from index `base`. `rights` holds a digit for each of M,
B, P and V: 2 read and write, 1 read, 0 none. `perLink` marks the objects of one host link. -/
structure ObjRow where
  base : Nat
  count : Nat
  sub : Nat
  ty : ObjTy
  acc : ObjAcc
  rights : Nat
  dflt : Nat := 0
  pers : Bool := false
  perLink : Bool := false
  deriving DecidableEq, Repr

/-- The all-ones value that stands for AUTO in 8, 16 and 32 bits (R368). -/
def auto8 : Nat := 0xFF
/-- AUTO of a U16. -/
def auto16 : Nat := 0xFFFF
/-- AUTO of a U32. -/
def auto32 : Nat := 0xFFFFFFFF

/-- 0x1000 (R371). Rights are decimal digits in the order M, B, P, V. -/
def catIdentity : List ObjRow := [
  ⟨0x1000, 1, 1, .u16, .ro, 1111, 0, false, false⟩,
  ⟨0x1000, 1, 2, .u16, .ro, 1111, 0x6416, false, false⟩,
  ⟨0x1000, 1, 3, .u8, .ro, 1111, 0xB0, false, false⟩,
  ⟨0x1000, 1, 4, .u32, .ro, 1111, 0, false, false⟩,
  ⟨0x1000, 1, 5, .str, .ro, 1111, 0, false, false⟩,
  ⟨0x1000, 1, 6, .u64, .ro, 1111, 0, false, false⟩,
  ⟨0x1000, 1, 7, .u64, .ro, 1111, 0, false, false⟩,
  ⟨0x1000, 1, 8, .u32, .ro, 1111, 0, false, false⟩,
  ⟨0x1001, 1, 0, .u8, .ro, 1111, 0, false, false⟩,
  ⟨0x1010, 1, 0, .u32, .rw, 2112, 0, true, false⟩,
  ⟨0x1020, 1, 1, .u8, .rw, 2102, 255, true, false⟩,
  ⟨0x1020, 1, 2, .u8, .rw, 2102, 8, true, false⟩,
  ⟨0x1030, 1, 0, .u32, .wo, 2202, 0, false, false⟩,
  ⟨0x1040, 1, 1, .u8, .ro, 1111, 0, false, false⟩,
  ⟨0x1040, 1, 2, .u32, .ro, 1111, 0, true, false⟩]

/-- The quotas of 0x2010+n in sub-index order with their defaults (R213, R335, R374). -/
def quotaDefaults : List Nat :=
  [auto32, auto32, auto32, 65536, 16777216, auto32, 16777216, auto32, 4096, auto32, auto32,
   auto32, auto32, auto32, auto32, 1, 200000000, 0, auto8, auto8]

/-- The type of quota sub-index `k` (R374). -/
def quotaTy (k : Nat) : ObjTy :=
  if k ≤ 15 then .u32 else if k = 16 then .u16 else if k = 17 then .u32
  else if k = 18 then .bool else .u8

/-- 0x2000 (R373, R374). -/
def catTenants : List ObjRow := [
  ⟨0x2000, 1, 0, .u8, .rw, 2202, 0xFF, true, false⟩,
  ⟨0x2001, 1, 0, .u8, .ro, 1111, 0, false, false⟩] ++
  (List.range 20).map (fun k =>
    ⟨0x2010, 4, k + 1, quotaTy (k + 1), .rw, 2212, nth 0 quotaDefaults k, true, true⟩) ++ [
  ⟨0x2020, 4, 1, .u32, .rw, 2212, 20000, true, true⟩,
  ⟨0x2020, 4, 2, .u32, .rw, 2212, 20000, true, true⟩,
  ⟨0x2030, 4, 1, .u16, .rw, 2122, 16, true, true⟩,
  ⟨0x2030, 4, 2, .u32, .rw, 2122, 1000, true, true⟩,
  ⟨0x2030, 4, 3, .u16, .rw, 2122, 0, true, true⟩,
  ⟨0x2030, 4, 4, .u16, .rw, 2122, 64, true, true⟩,
  ⟨0x2030, 4, 5, .u16, .rw, 2122, 8192, true, true⟩,
  ⟨0x2030, 4, 6, .u32, .rw, 2122, 0, true, true⟩,
  ⟨0x2030, 4, 7, .u16, .rw, 2122, 256, true, true⟩,
  ⟨0x2030, 4, 8, .u32, .rw, 2122, 65536, true, true⟩] ++
  (List.range 5).map (fun k => ⟨0x2040, 4, k + 1, .u8, .ro, 1111, 0, false, true⟩)

/-- Sub-indices 1 to 12 of a port's settings: type and default (R375). -/
def portCfgRows : List (ObjTy × Nat) :=
  [(.bool, 1), (.u16, 0x1FF), (.u8, 4), (.bool, 1), (.u16, 256), (.u32, 16000), (.u32, 8000),
   (.u32, 50000), (.u32, 10000), (.u32, 0), (.u32, 393216), (.u8, 0)]

/-- 0x3000 (R375). -/
def catPorts : List ObjRow := [
  ⟨0x3000, 1, 0, .u16, .rw, 2102, 0, false, false⟩,
  ⟨0x3001, 1, 0, .u16, .rw, 2102, 0, true, false⟩] ++
  portCfgRows.mapIdx (fun k r => ⟨0x3100, 16, k + 1, r.1, .rw, 2102, r.2, true, false⟩) ++
  portCfgRows.mapIdx (fun k r => ⟨0x3110, 2, k + 1, r.1, .wo, 2002, 0, false, false⟩) ++ [
  ⟨0x3200, 16, 1, .u8, .ro, 1111, 0, false, false⟩,
  ⟨0x3200, 16, 2, .u8, .ro, 1111, 0, false, false⟩,
  ⟨0x3200, 16, 3, .u32, .ro, 1111, 0, false, false⟩,
  ⟨0x3200, 16, 4, .u16, .ro, 1111, 0, false, false⟩,
  ⟨0x3200, 16, 5, .u16, .ro, 1111, 0, false, false⟩,
  ⟨0x3200, 16, 6, .u8, .ro, 1111, 0, false, false⟩,
  ⟨0x3200, 16, 7, .u8, .ro, 1111, 0, false, false⟩,
  ⟨0x3200, 16, 8, .u8, .ro, 1111, 0, false, false⟩,
  ⟨0x3200, 16, 9, .u32, .ro, 1111, 0, false, false⟩,
  ⟨0x3200, 16, 10, .u8, .ro, 1111, 0, false, false⟩,
  ⟨0x3300, 16, 1, .u16, .wo, 2002, 0, false, false⟩,
  ⟨0x3300, 16, 2, .u8, .wo, 2002, 0, false, false⟩]

/-- 0x4000 to 0x6000 (R377, R378, R380). -/
def catTables : List ObjRow := [
  ⟨0x4000, 1, 0, .streamed 33554432 128, .rw, 2102, 0, false, false⟩,
  ⟨0x4001, 1, 0, .streamed 4352 16, .rw, 2102, 0, false, false⟩,
  ⟨0x4002, 1, 0, .streamed 32768 8, .rw, 2102, 0, false, false⟩,
  ⟨0x4010, 1, 1, .u16, .rw, 2112, 2048, true, false⟩,
  ⟨0x4010, 1, 2, .u32, .rw, 2112, 8000, true, false⟩,
  ⟨0x4010, 1, 3, .u8, .rw, 2112, 96, true, false⟩,
  ⟨0x4010, 1, 4, .u8, .rw, 2112, 64, true, false⟩,
  ⟨0x4010, 1, 5, .u32, .rw, 2112, 1000, true, false⟩,
  ⟨0x4010, 1, 6, .u32, .rw, 2112, 32000, true, false⟩,
  ⟨0x5000, 16, 0, .streamed 32768 8, .rw, 2202, 0, true, false⟩,
  ⟨0x5010, 1, 0, .staged 12, .wo, 2202, 0, false, false⟩,
  ⟨0x5020, 1, 0, .u16, .ro, 1111, 1, false, false⟩,
  ⟨0x6000, 1024, 0, .staged 81984, .rw, 2222, 0, false, false⟩,
  ⟨0x6400, 1024, 1, .u8, .ro, 1111, 0, false, false⟩,
  ⟨0x6400, 1024, 2, .u8, .ro, 1111, 0, false, false⟩,
  ⟨0x6400, 1024, 3, .u16, .ro, 1111, 0, false, false⟩,
  ⟨0x6400, 1024, 4, .u8, .ro, 1111, 0, false, false⟩,
  ⟨0x6400, 1024, 5, .u32, .ro, 1111, 0, false, false⟩,
  ⟨0x6400, 1024, 6, .bool, .ro, 1111, 0, false, false⟩,
  ⟨0x6400, 1024, 7, .u64, .ro, 1111, 0, false, false⟩,
  ⟨0x6800, 1, 1, .u16, .rw, 2102, 512, true, false⟩,
  ⟨0x6800, 1, 2, .u16, .rw, 2102, 512, true, false⟩,
  ⟨0x6800, 1, 3, .u32, .rw, 2102, 10000, true, false⟩,
  ⟨0x6810, 4, 1, .u8, .rw, 2112, auto8, true, true⟩,
  ⟨0x6810, 4, 2, .u16, .rw, 2112, auto16, true, true⟩,
  ⟨0x6820, 1, 1, .u16, .ro, 1111, 0, false, false⟩,
  ⟨0x6820, 1, 2, .u32, .ro, 1111, 0, false, false⟩,
  ⟨0x6820, 1, 3, .u8, .ro, 1111, 0, false, false⟩,
  ⟨0x6820, 1, 4, .u16, .ro, 1111, 0, false, false⟩]

/-- 0x7000 (R381). -/
def catClocks : List ObjRow := [
  ⟨0x7000, 1, 0, .u16, .rw, 2112, 2000, true, false⟩,
  ⟨0x7001, 1, 0, .u16, .rw, 2102, 850, true, false⟩,
  ⟨0x7002, 1, 1, .u16, .ro, 1111, 0, false, false⟩,
  ⟨0x7002, 1, 2, .u16, .ro, 1111, 0, false, false⟩,
  ⟨0x7002, 1, 3, .u16, .ro, 1111, 0, false, false⟩,
  ⟨0x7002, 1, 4, .u16, .ro, 1111, 0, false, false⟩,
  ⟨0x7002, 1, 5, .u16, .ro, 1111, 0, false, false⟩,
  ⟨0x7002, 1, 6, .bool, .ro, 1111, 0, false, false⟩,
  ⟨0x7002, 1, 7, .u32, .ro, 1111, 0, false, false⟩,
  ⟨0x7010, 1, 1, .bool, .rw, 2102, 0, true, false⟩,
  ⟨0x7010, 1, 2, .u32, .rw, 2102, 0xFFFFFFFF, true, false⟩,
  ⟨0x7010, 1, 3, .u32, .rw, 2102, 16, true, false⟩,
  ⟨0x7010, 1, 4, .u64, .wo, 2002, 0, false, false⟩] ++
  (List.range 16).map (fun k => ⟨0x7011, 1, k + 1, .i32, .rw, 2102, 0, true, false⟩) ++ [
  ⟨0x7012, 1, 1, .bool, .ro, 1111, 0, false, false⟩,
  ⟨0x7012, 1, 2, .u8, .ro, 1111, 255, false, false⟩,
  ⟨0x7012, 1, 3, .u8, .ro, 1111, 0xFF, false, false⟩,
  ⟨0x7012, 1, 4, .i32, .ro, 1111, 0, false, false⟩,
  ⟨0x7020, 1, 0, .u32, .rw, 2102, 0, false, false⟩] ++
  (List.range 7).map (fun k => ⟨0x7030, 1, k + 1, .i16, .ro, 1111, 0, false, false⟩) ++ [
  ⟨0x7031, 1, 1, .i16, .rw, 2102, 100, true, false⟩,
  ⟨0x7031, 1, 2, .i16, .rw, 2102, 115, true, false⟩,
  ⟨0x7040, 1, 1, .u32, .ro, 1111, 0, false, false⟩,
  ⟨0x7040, 1, 2, .u32, .ro, 1111, 0, false, false⟩] ++
  (List.range 148).map (fun k => ⟨0x7050, 1, k + 1, .u8, .rw, 2102, 1, false, false⟩)

/-- The elements of `CARVE` in KiB (R389): default, and whether the element is variable with its
range. -/
def carveRows : List (Nat × Option (Nat × Nat)) :=
  [(32768, none), (24576, none), (32768, none), (16384, none), (16384, some (8192, 40960)),
   (8192, none), (8192, none), (8192, none), (8192, some (0, 8192)), (8192, some (2048, 16384)),
   (8192, none), (4096, none), (4096, none), (4096, none), (2048, none),
   (2048, some (1024, 8192)), (1024, none)]

/-- 0x8000 to 0xB000 (R383, R385, R386, R388). -/
def catService : List ObjRow := [
  ⟨0x8000, 1, 0, .streamed 7680 32, .ro, 1111, 0, false, false⟩,
  ⟨0x8001, 1, 0, .u32, .ro, 1111, 0, false, false⟩,
  ⟨0x8002, 1, 1, .u32, .ro, 1111, 0, false, false⟩,
  ⟨0x8002, 1, 2, .u32, .ro, 1111, 0, false, false⟩,
  ⟨0x8010, 1, 0, .u8, .rw, 2102, 0x0F, false, false⟩,
  ⟨0x8100, 240, 0, .u64, .rw, 2212, 0, false, false⟩,
  ⟨0x8200, 240, 0, .streamed 64 1, .rw, 2102, 0, true, false⟩,
  ⟨0x82F0, 2, 0, .streamed 64 1, .wo, 2002, 0, false, false⟩,
  ⟨0x8300, 240, 0, .u64, .wo, 2002, 0, false, false⟩,
  ⟨0x9000, 1, 0, .streamed 32768 8, .ro, 1111, 0, false, false⟩,
  ⟨0x9001, 1, 0, .staged 4, .wo, 2202, 0, false, false⟩,
  ⟨0x9010, 1, 0, .u32, .rw, 2102, 1000, true, false⟩,
  ⟨0x9020, 4, 1, .u16, .rw, 2112, auto16, true, true⟩,
  ⟨0x9020, 4, 2, .u16, .rw, 2112, auto16, true, true⟩,
  ⟨0xA000, 1, 0, .staged 4096, .wo, 2202, 0, false, false⟩,
  ⟨0xA001, 1, 0, .u8, .ro, 1111, 0, false, false⟩,
  ⟨0xA010, 1, 0, .staged 32, .wo, 2222, 0, false, false⟩,
  ⟨0xA011, 1, 0, .domain, .ro, 1111, 0, false, false⟩,
  ⟨0xA020, 1, 1, .u16, .ro, 1111, 0, false, false⟩,
  ⟨0xA020, 1, 2, .u16, .ro, 1111, 0, false, false⟩,
  ⟨0xA021, 1, 0, .domain, .ro, 1111, 0, false, false⟩,
  ⟨0xA030, 1, 0, .staged 4128768, .wo, 2002, 0, false, false⟩,
  ⟨0xA031, 1, 1, .u8, .ro, 1111, 0, false, false⟩,
  ⟨0xA031, 1, 2, .u32, .ro, 1111, 0, false, false⟩] ++
  (List.range 3).map (fun k => ⟨0xA040, 1, k + 1, .u64, .ro, 1101, 0, true, false⟩) ++
  carveRows.mapIdx (fun k r => ⟨0xB000, 1, k + 1, .u32, .rw, 2102, r.1, true, false⟩) ++
  (List.range 18).map (fun k => ⟨0xB001, 1, k + 1, .u32, .ro, 1111, 0, false, false⟩) ++ [
  ⟨0xB002, 1, 1, .u32, .ro, 1111, 0, false, false⟩,
  ⟨0xB002, 1, 2, .u16, .ro, 1111, 0, false, false⟩,
  ⟨0xB002, 1, 3, .u8, .ro, 1111, 0, false, false⟩,
  ⟨0xB002, 1, 4, .u32, .ro, 1111, 0, false, false⟩]

/-- The rows of the range that index `idx` lies in. -/
def catalogue (idx : Nat) : List ObjRow :=
  if idx < 0x2000 then catIdentity
  else if idx < 0x3000 then catTenants
  else if idx < 0x4000 then catPorts
  else if idx < 0x7000 then catTables
  else if idx < 0x8000 then catClocks
  else catService

/-- The row covers index `idx`. -/
def ObjRow.covers (r : ObjRow) (idx : Nat) : Bool :=
  decide (r.base ≤ idx) && decide (idx < r.base + r.count)

/-- The rows of index `idx`. -/
def objRows (idx : Nat) : List ObjRow := (catalogue idx).filter (·.covers idx)

/-- The row of an object; sub-index 0 of an ARRAY or RECORD is a U8 holding the highest sub-index
(R346), readable by every principal. DEDUCED (log 21): the catalogue lists no rights for it. -/
def objRow (idx sub : Nat) : Option ObjRow :=
  let rows := objRows idx
  match rows.find? (·.sub == sub) with
  | some r => some r
  | none =>
    if sub = 0 ∧ rows ≠ [] then
      some { base := idx, count := 1, sub := 0, ty := .u8, acc := .ro, rights := 1111,
             dflt := rows.foldl (fun n r => max n r.sub) 0 }
    else none

/-- The default of an object (R371 to R389). -/
def objDefault (idx sub : Nat) : Nat :=
  match objRow idx sub with
  | some r => r.dflt
  | none => 0

/-- The key of an object's value. -/
def objKey (idx sub : Nat) : Nat := idx * 256 + sub

end Sys2Proof.Machine
end

