-- ==== Sys2Proof/Machine/State.lean ====
section
/-! DEFINITION. The state of the T6416 as plain data: everything the manual gives the block, the
queue of waiting commands, and the log of what the block has driven outward. Every field's
default is its value in `State.reset`, the package after VDD_AON has risen with PORST_N still
held low (R442, R449). Indexed things stand in sparse tables (`Tbl`) whose default is the reset
value of one entry, so an unlisted entry is at reset. Values the manual does not give are named
in the assumption log; the log entry's number stands beside them. -/

namespace Sys2Proof.Machine

/-- Who raises it, and whether that is safe. -/
inductive Fault where
  /-- Raised by FLIT_RECEIVED alone, for an operand that is not 256 bytes: a flit is 256 bytes
  (R64), so such a command stands for no event. Safe: the machine stops. -/
  | notAFlit
  deriving DecidableEq, Repr

/-- Who raises it, and whether that is safe. -/
inductive Refusal where
  /-- Raised by a dispatch arm whose command has no meaning yet. Safe: the machine stops. -/
  | notModelled (mnemonic : String)
  /-- Raised by TAP_INSTRUCTION for an instruction of the debug set, which R482 names and does
  not describe. Safe: the machine stops. -/
  | debugInstruction (code : Nat)
  deriving DecidableEq, Repr

/-! ## Packets and flits -/

/-- A packet (R33): its 32 hop bytes with the control word's bit cleared, the route control word
(R36), and every byte from byte 32 on. -/
structure Pkt where
  hops : List Byte
  cw : BitVec 32
  rest : Bytes
  deriving DecidableEq, Repr

/-- A DATA flit as the replay window keeps it (R64, R70), with the time it was last sent; ACK, RR
and credit are filled in at each sending. -/
structure TxFlit where
  seq : BitVec 16
  vc : Nat
  start : Nat
  used : Nat
  payload : Bytes
  sentAt : Nat
  deriving DecidableEq, Repr

/-- A packet in the replay window: the flits that hold it, first and last, and the packet itself
with the input it arrived on (R72, R87, R109). -/
structure TxPkt where
  first : BitVec 16
  last : BitVec 16
  pkt : Pkt
  row : Nat
  deriving DecidableEq, Repr

/-- Where a packet on its way through the router came from: the input row it arrived on (R106), 16
for the injection point, and where it still holds grains of that input's buffer (R75) the VC and the
number of its place there. -/
structure Src where
  row : Nat
  place : Option (Nat × Nat) := none
  deriving DecidableEq, Repr

/-- A packet queued for an output port. -/
structure QPkt where
  pkt : Pkt
  src : Src
  deriving DecidableEq, Repr

/-- A tree packet taken off its input, some of whose copies have still to join their output queues, as port
and VC, each in its turn (R105, R114); `entry` is the sprue entry read for it (R26). -/
structure Copying where
  pkt : Pkt
  src : Src
  entry : Nat
  left : List (Nat × Nat)
  deriving DecidableEq, Repr

/-- What a packet in the fill stash waits for: the fill of a context or of a region (R131, R154), or a
fresh translation (R204, log 146). -/
inductive Awaits where
  | nothing
  | ctx (c : Nat)
  | region (k : Nat)
  | translation
  deriving DecidableEq, Repr

/-- A packet waiting for local delivery: the input port it came on (16 for the local output) and
the VC. -/
structure Arrival where
  pkt : Pkt
  row : Nat
  vc : Nat
  /-- A tree packet's sprue entry, read once for it (R26). -/
  entry : Nat := 0
  /-- Its heat is noted on its connection (R100). -/
  noted : Bool := false
  /-- What it waits for in the fill stash. -/
  awaits : Awaits := .nothing
  /-- It is malformed (R58), and its connection still has to answer it. -/
  bad : Bool := false
  /-- The region, and its generation, whose checks the packet has passed (R153). -/
  passed : Option (Nat × Nat) := none
  /-- It is the first copy of its PSNs past the window check, and its connection holds them for it (R514). -/
  holds : Bool := false
  deriving DecidableEq, Repr

/-! ## Ports -/

/-- The states of R83. -/
inductive PortSt where
  | disabled | training | exchange | active | retrain | failed | refused | oos
  deriving DecidableEq, Repr

/-- A capability record (R81). -/
structure CapRec where
  verMax : Nat := 0
  verMin : Nat := 0
  peerSeen : Bool := false
  seamlessOk : Bool := false
  timeOk : Bool := false
  resume : Bool := false
  pvcCount : Nat := 0
  nodeId : Nat := 0
  machineId : Nat := 0
  partMask : Nat := 0
  replayDepth : Nat := 0
  hbUnits : Nat := 0
  mode : Nat := 0
  resumeAck : BitVec 16 := 0
  refuse : Nat := 0
  deriving DecidableEq, Repr

/-- The settings a port loads when it enters TRAINING (R94, R367). -/
structure PortCfg where
  modes : Nat := 0x1FF
  pvcCount : Nat := 4
  seamlessOk : Bool := true
  hbPeriod : Nat := 256
  expectNeighbour : Nat := 0
  medium : Nat := 0
  machineId : Nat := 0
  deriving DecidableEq, Repr

/-- One network port. -/
structure Port where
  st : PortSt := .disabled
  loaded : PortCfg := {}
  /-- Trained mode, laid out as MODE in R81. -/
  mode : Nat := 0
  retiredLanes : Nat := 0
  lastRefuse : Nat := 0
  trainAttempts : Nat := 0
  changeResult : Nat := 0
  /-- Time at which the present state was entered. -/
  since : Nat := 0
  -- the exchange (R81, R82)
  peer : Option CapRec := none
  neighbour : Nat := 0
  neighbourParts : Nat := 0
  neighbourDepth : Nat := 0
  version : Nat := 0
  pvcSettled : Nat := 0
  seamless : Bool := false
  timeOk : Bool := false
  /-- The partner's `HB_PERIOD` in units of 8 ns: 256 ns, the default, until an exchange has given it (log
  133). -/
  peerHbUnits : Nat := 32
  myRefuse : Nat := 0
  lastCapx : Option Nat := none
  -- receiver (R69, R73)
  expect : BitVec 16 := 0
  discarding : Bool := false
  /-- The packet being received: its VC and its grains so far. -/
  partialRx : Option (Nat × Bytes) := none
  freed : Tbl Nat := []
  grant : Tbl Nat := []
  /-- The CLIM last advertised, per VC. -/
  told : Tbl Nat := []
  /-- VCs whose CLIM has changed since it was last reported, longest first (R76). -/
  stale : List Nat := []
  cvcB : Nat := 0
  /-- VCs that wait for pool space, in the order the requests arose (R512). -/
  poolWait : List Nat := []
  /-- Packets per VC received before the present entry to ACTIVE, whose grains are of no count in
  its credits (R89). -/
  carry : Tbl Nat := []
  -- sender (R70 to R74)
  nextSeq : BitVec 16 := 0
  window : List TxFlit := []
  windowPkts : List TxPkt := []
  ackGot : BitVec 16 := 0xFFFF
  /-- ACK and time of the last replay request acted on. -/
  lastRr : Option (BitVec 16 × Nat) := none
  /-- When a replay timeout last started a replay (R70). -/
  timeoutAt : Option Nat := none
  replayed : Bool := false
  /-- Time at which ACK last advanced, or data flits were first unacknowledged. -/
  ackAt : Nat := 0
  sent : Tbl Nat := []
  climGot : Tbl Nat := []
  /-- The packet being packed into flits: what is left of its bytes, and its record. -/
  opened : Option (Bytes × TxPkt) := none
  lastVc : Nat := 15
  -- liveness (R77, R78)
  sentHbAt : Nat := 0
  gotHbAt : Nat := 0
  /-- Time of the last OOS flit since the port entered FAILED (R83). -/
  oosWhileFailed : Option Nat := none
  -- change of mode (R84)
  pauseTarget : Option Nat := none
  retrainTo : Nat := 0
  /-- A PAUSE that waits for the packet being sent to be finished: `PCODE`, `TARGET` and the
  requester's node (R84). -/
  pauseOwed : Option (Nat × Nat × Nat) := none
  /-- When the port went to TRAINING over a mode disagreement: it still sends CAPX with `REFUSE` 4
  (R83). -/
  refuse4At : Option Nat := none
  /-- The rate that training after a lane failure is held to (R86). -/
  rateHeld : Option Nat := none
  /-- The port has entered FAILED since it was last ACTIVE, and the splice that followed has been
  reported (R110). -/
  hasFailed : Bool := false
  detourTold : Bool := false
  -- fabric time on the link (R90)
  lastTimeFlit : Nat := 0
  tRxEcho : Nat := 0
  tTxEcho : Nat := 0
  peerSynced : Bool := false
  peerStratum : Nat := 255
  -- bandwidth windows (R411)
  winTx : Nat := 0
  winRx : Nat := 0
  deriving DecidableEq, Repr

/-! ## Connections and operations -/

/-- The states of R125. -/
inductive CtxSt where
  | free | setup | active | error | aborted
  deriving DecidableEq, Repr

/-- One unanswered PSN (R133, R140 to R142). `kind` is the data kind of R47, `off` the byte
offset and `len` the bytes it carries or asks for; RDV_FIN is kind 0x43. -/
structure Unans where
  psn : BitVec 32
  op : Nat
  kind : Nat
  off : Nat
  len : Nat
  msn : BitVec 32
  rnrCount : Nat := 0
  /-- Waiting out an RNR until this time. -/
  rnrUntil : Option Nat := none
  /-- Something has arrived on the connection since this PSN was first sent (R143). -/
  heard : Bool := false
  /-- The path of the last packet sent for it. -/
  path : Nat := 0
  /-- When the timer last sent it again (R145). -/
  timerSent : Option Nat := none
  /-- The path of the packet that the timer's last resending replaced, until a report has named it (R112). -/
  before : Option Nat := none
  deriving DecidableEq, Repr

/-- A range of the error log (R137). -/
structure ErrRange where
  first : BitVec 32
  last : BitVec 32
  status : Nat
  deriving DecidableEq, Repr

/-- A connection context (R122 to R143). -/
structure Ctx where
  st : CtxSt := .free
  fid : Nat := 0
  localEp : Nat := 0
  remoteFa : Nat := 0
  rto : Nat := 64
  retryLimit : Nat := 7
  rnrLimit : Nat := 7
  rnrWait : Nat := 16
  remoteCtx : Nat := 0
  localIpsn : BitVec 32 := 0
  errStatus : Nat := 0
  home : Nat := 0
  -- send state
  nextPsn : BitVec 32 := 0
  nextMsn : BitVec 32 := 0
  unans : List Unans := []
  tries : Nat := 0
  timerAt : Option Nat := none
  heat : List Nat := [0, 0, 0, 0]
  heatAt : List Nat := [0, 0, 0, 0]
  lastPath : Nat := 3
  holdUntil : List (Option Nat) := [none, none, none, none]
  -- receive state
  base : BitVec 32 := 0
  map : BitVec 1024 := 0
  errLog : List ErrRange := []
  rxHeat : List (Option Nat) := [none, none, none, none]
  lastEcho : Nat := 3
  ackCount : Nat := 0
  ackSince : Option Nat := none
  lastDupAck : Option Nat := none
  /-- PSNs past the window check whose outcome is not recorded (R514): those a transport engine has in hand, those
  whose packet waits in the fill stash, and the copies waiting. -/
  inHand : List (BitVec 32) := []
  stashed : List (BitVec 32) := []
  waiting : List Arrival := []
  nextMatch : BitVec 32 := 0
  -- cache (R130)
  spilled : Bool := false
  filling : Bool := false
  used : Nat := 0
  deriving DecidableEq, Repr

/-- What a trace record says beside the completion (R418). -/
structure TraceTimes where
  posted : Nat
  issued : Nat
  acked : Option Nat := none
  tries : Nat := 0
  path : Nat := 0
  deriving DecidableEq, Repr

/-- What an operation is. -/
inductive OpKind where
  | eager | rts | put | get | atomic | mcast | pull | fin
  deriving DecidableEq, Repr

/-- An operation in a transport engine, from its issue to its completion. -/
structure Op where
  kind : OpKind
  hl : Nat
  fid : Nat
  /-- The queue and ring index of its descriptor; meaningless for a pull or a FIN. -/
  q : Nat := 0
  idx : Nat := 0
  ctx : Nat := 0
  desc : Bytes := []
  len : Nat := 0
  addr : Nat := 0
  lkey : Nat := 0
  remoteAddr : Nat := 0
  rkey : Nat := 0
  msn : BitVec 32 := 0
  /-- Offset of the next byte to send, and whether the first PSN is taken. -/
  next : Nat := 0
  started : Bool := false
  allSent : Bool := false
  status : Nat := 0
  /-- Payload bytes read from host memory, by offset. -/
  staged : List (Nat × Bytes) := []
  /-- Offsets whose payload lies in a poisoned word: the packet that takes it is dropped (R399). -/
  spoilt : List Nat := []
  resend : List (BitVec 32) := []
  result : Bytes := []
  /-- Rendezvous: when the RTS PSN was answered. -/
  rtsAnswered : Option Nat := none
  /-- Rendezvous: when `RDV_WAIT` ends, where it is limited (R190). -/
  rdvUntil : Option Nat := none
  /-- The completion is written, and a PSN is still unanswered. -/
  closed : Bool := false
  /-- For a pull: the in-flight entry it fills; for a FIN: the status and the bytes pulled. -/
  entry : Nat := 0
  finStatus : Nat := 0
  finBytes : Nat := 0
  -- MCAST_PUT: reports got, keyed by tree sequence
  delivered : Option Nat := none
  fenced : Nat := 0
  reports : Nat := 0
  pktsSent : Nat := 0
  -- for the trace record (R418)
  trace : Option TraceTimes := none
  deriving DecidableEq, Repr

/-- What a PCIe read or AtomicOp in flight is for. -/
inductive DmaPurpose where
  | payload (op : Nat) (off : Nat)
  | getRead (ctx : Nat) (req : Pkt) (off len : Nat) (fresh : Bool)
  | hostAtomic (ctx : Nat) (req : Pkt)
  | casRead (ctx : Nat) (req : Pkt) (attempts : Nat)
  | casTry (ctx : Nat) (req : Pkt) (attempts : Nat) (expected : Nat)
  | mouldCopyIn (m : Nat) (step : Nat) (seq : BitVec 32)
  /-- The fill of a region, or of a context, from its pantry (R129, R154). -/
  | fill (region : Bool) (k : Nat)
  deriving DecidableEq, Repr

/-- Kinds of non-posted request (R161). -/
inductive DmaKind where
  | read | fetchAdd | swap | cas
  deriving DecidableEq, Repr

/-- A non-posted PCIe request in flight (R158, R202). -/
structure DmaReq where
  tag : Nat
  hl : Nat
  fid : Nat
  pasid : Option Nat
  kind : DmaKind
  addr : Nat
  len : Nat
  operand0 : Nat := 0
  operand1 : Nat := 0
  /-- The region key the access goes through, for R153; none for a ring or pantry access. -/
  key : Option Nat
  purpose : DmaPurpose
  deriving DecidableEq, Repr

/-- An entry of the atomic response cache (R138): an ATOMIC that has executed has `STATUS` OK. -/
structure AtomicEntry where
  ctx : Nat
  psn : BitVec 32
  old : Bytes
  status : Nat := 0
  at_ : Nat
  hold : Nat
  deriving DecidableEq, Repr

/-! ## Protection -/

/-- A protection domain that exists (R148). -/
structure Pd where
  live : Bool := false
  fid : Nat := 0
  deriving DecidableEq, Repr

/-- An endpoint (R149, R155, R217). -/
structure Ep where
  live : Bool := false
  hl : Nat := 0
  fid : Nat := 0
  pd : Nat := 0
  partition : Nat := 0
  mcastKey : Option Nat := none
  deriving DecidableEq, Repr

/-- A region index (R150, R151). -/
structure Reg where
  live : Bool := false
  gen : Nat := 1
  /-- When the index was last deregistered, and its quarantine then; none before that. -/
  freedAt : Option (Nat × Nat) := none
  freedOrder : Nat := 0
  fid : Nat := 0
  pd : Nat := 0
  pool : Bool := false
  rights : Nat := 0
  relaxed : Bool := false
  pasid : Option Nat := none
  start : Nat := 0
  length : Nat := 0
  dmaAddr : Nat := 0
  poolWord : Nat := 0
  unusable : Bool := false
  /-- A deregistration of it waits: no new check finds it (R153). -/
  closing : Bool := false
  spilled : Bool := false
  filling : Bool := false
  used : Nat := 0
  deriving DecidableEq, Repr

/-! ## Queues -/

/-- A descriptor taken and not issued (R252): its ring index, its bytes, when the poll read
completed and whether it is traced. -/
structure Taken where
  idx : Nat
  bytes : Bytes
  at_ : Nat
  traced : Bool
  /-- Its context was destroyed while it waited: it completes with FLUSHED (R125). -/
  flushed : Bool := false
  /-- The status of the check that it failed when it was taken (R261). -/
  failed : Option Nat := none
  /-- No local key that it names was being deregistered when it was taken (R153). -/
  held : Bool := true
  deriving DecidableEq, Repr

/-- A queue (R243 to R268). -/
structure Queue where
  live : Bool := false
  ty : Nat := 0
  hl : Nat := 0
  fid : Nat := 0
  base : Nat := 0
  log : Nat := 4
  notify : Bool := false
  prio : Nat := 0
  pasid : Option Nat := none
  pd : Nat := 0
  pollBase : Nat := 64
  pollCeil : Nat := 16000
  eq : Nat := 0
  eqValid : Bool := false
  vector : Nat := 0
  vectorEn : Bool := false
  home : Nat := 0
  -- SQ and RQ
  c : Nat := 0
  phase : Bool := true
  interval : Nat := 64
  /-- When the next poll falls due; none while taken descriptors are still to be issued (R251). -/
  pollAt : Option Nat := some 0
  taken : List Taken := []
  /-- Operations issued and not complete, oldest first, by ring index (for R169 and R249). -/
  outstanding : List Nat := []
  -- EQ
  w : Nat := 0
  wPhase : Bool := true
  /-- Entries from the write index on that the device may write. -/
  eqFree : Nat := 0
  /-- Notification places reserved and not yet used, and notifications parked (R144). -/
  reserved : Nat := 0
  parked : List Bytes := []
  deriving DecidableEq, Repr

/-! ## The sieve -/

/-- An entry of a posted-receive list (R176). -/
structure Posted where
  q : Nat
  idx : Nat
  desc : Bytes
  tag : BitVec 64
  ignore : BitVec 64
  srcMode : Nat
  srcFa : Nat
  lkey : Nat
  addr : Nat
  len : Nat
  trace : Option TraceTimes := none
  deriving DecidableEq, Repr

/-- A lent overflow buffer (R187, R188). -/
structure OvfBuf where
  q : Nat
  idx : Nat
  desc : Bytes
  lkey : Nat
  addr : Nat
  len : Nat
  used : Nat := 0
  pieces : Nat := 0
  past : Bool := false
  /-- The place for its notification is reserved. -/
  placed : Bool := false
  trace : Option TraceTimes := none
  deriving DecidableEq, Repr

/-- A matching context (R174, R178). -/
structure Mctx where
  live : Bool := false
  fid : Nat := 0
  pd : Nat := 0
  home : Nat := 0
  posted : List Posted := []
  /-- The in-flight entries of the unexpected list, earliest first. -/
  unexpected : List Nat := []
  overflow : List OvfBuf := []
  deriving DecidableEq, Repr

/-- The state of a message (R181). -/
inductive MsgSt where
  | stashed | unexpected | matched
  deriving DecidableEq, Repr

/-- An entry of the in-flight message table (R181). -/
structure InFlight where
  st : MsgSt
  ctx : Nat
  msn : BitVec 32
  hl : Nat
  mctx : Nat
  rts : Bool
  tag : BitVec 64
  srcFa : Nat
  msgLen : Nat
  pullKey : Nat
  pullAddr : Nat
  got : Nat := 0
  /-- Overflow piece: queue and ring index of its buffer, and the piece's offset there. -/
  piece : Option (Nat × Nat × Nat) := none
  /-- Offsets and lengths of what lies in the piece, and whether the copy is running or waits for a
  notification place. -/
  inPiece : List (Nat × Nat) := []
  copying : Bool := false
  recv : Option Posted := none
  /-- Some byte went through an overflow piece (R185). -/
  viaPiece : Bool := false
  matchedAt : Option Nat := none
  /-- The place for the receive's notification is reserved. -/
  placed : Bool := false
  /-- The connection has left ACTIVE: no packet of it belongs to this message any more (R196). -/
  detached : Bool := false
  deriving DecidableEq, Repr

/-- A completion, a copy or a pull that waits for a notification place (R193). -/
inductive PlaceWaiter where
  /-- Write this completion of a receive-queue entry and its notification; `matched` says that it is that
  of a receive that had been matched (R194). -/
  | completion (q idx : Nat) (desc : Bytes) (status : Nat) (result : Bytes)
      (trace : Option TraceTimes) (matched : Bool)
  /-- Complete the descriptor at this ring index, the head of its receive queue, with this status. -/
  | head (q idx status : Nat)
  /-- The overflow buffer at this ring index, which the sieve has moved past (R188). -/
  | retire (mctx q idx : Nat)
  /-- Start the copy of this in-flight entry. -/
  | copy (key : Nat)
  /-- Start the pull of this in-flight entry. -/
  | pull (key : Nat)
  deriving DecidableEq, Repr

/-! ## Trees and gather -/

/-- A gather record of DELIVERY_REPORTs (R116). -/
structure ReportRec where
  tree : Nat
  key : BitVec 32
  delivered : Nat := 0
  fenced : Nat := 0
  count : Nat := 0
  /-- Ports that have contributed; 16 stands for this node. -/
  from_ : List Nat := []
  openedAt : Nat := 0
  wait : Nat := 0
  /-- Partition of the report to be sent (log 27). -/
  part : Nat := 0
  deriving DecidableEq, Repr

/-- A crucible gather record (R281, R290): one page. -/
structure GatherRec where
  mould : Nat
  seq : BitVec 32
  step : Nat
  page : Nat
  off : Nat
  combine : Nat
  plen : Nat
  tree : Nat
  pvc : Nat
  partition : Nat
  /-- Contributions by position. -/
  parts : List (Nat × Bytes) := []
  deriving DecidableEq, Repr

/-- A pour that a break has ended at this node, and when (R294, R302): what still comes of it is stale. -/
structure BrokenPour where
  mould : Nat
  seq : BitVec 32
  at_ : Nat
  deriving DecidableEq, Repr

/-! ## Moulds -/

/-- The states of R276. -/
inductive MouldSt where
  | empty | loading | checking | valid | invalid
  deriving DecidableEq, Repr

/-- A recorded or sent BREAK (R294). -/
structure BreakInfo where
  cause : Nat
  origin : Nat
  step : Nat
  detail : Nat
  deriving DecidableEq, Repr

/-- A step in progress (R286). `done` says that its own work is done, so that STEP_COMPLETE may
record it. -/
structure StepRun where
  step : Nat
  done : Bool := false
  startedAt : Nat := 0
  deriving DecidableEq, Repr

/-- A pour from its issue to its completion (R282 to R297). -/
structure Pour where
  q : Nat
  idx : Nat
  fid : Nat
  hl : Nat
  desc : Bytes
  seq : BitVec 32
  /-- Home region, from its creation, and the mould engine it runs on once it is armed, numbered as
  in R19 (R20, R286). -/
  home : Nat := 0
  engine : Nat := 0
  armed : Bool := false
  /-- Time of arming, counted and as fabric time. -/
  armedAt : Nat := 0
  armedTime : Nat := 0
  trace : Option TraceTimes := none
  /-- Next step to start, steps in progress, and steps completed with the fabric times of their
  start and completion. -/
  next : Nat := 0
  running : List StepRun := []
  doneSteps : List (Nat × Nat × Nat) := []
  /-- Bytes credited to a step by arriving packets or combined for it (R289, R290), and the steps a
  packet with `PLEN` 0 has met. -/
  credit : Tbl Nat := []
  zeroSeen : List Nat := []
  /-- Slot ranges that packets of the pour have landed in, as address and length (R330, R332). -/
  landed : List (Nat × Nat) := []
  lastDoneAt : Nat := 0
  /-- The watchdog in µs, fixed at arming (R296, R298). -/
  watchdog : Nat := 0
  deriving DecidableEq, Repr

/-- One mould index (R275 to R289). -/
structure Mould where
  st : MouldSt := .empty
  image : Bytes := []
  checkCode : Nat := 0
  checkStep : Nat := 0
  nextSeq : BitVec 32 := 0
  /-- Slot pages and early pages reserved. -/
  pages : Nat := 0
  early : Nat := 0
  pours : List Pour := []
  /-- Packets held for the next pour (R280). -/
  held : List Pkt := []
  /-- A BREAK recorded for the next pour, and that pour's `POUR_SEQ` (R285, R294). -/
  broken : Option BreakInfo := none
  brokenSeq : BitVec 32 := 0
  /-- Since the last break the slot space is undefined where nothing is written (R295): the count
  its free values are taken at. -/
  undef : Option Nat := none
  /-- Steps that lie in a poisoned word of the mould store: none of them starts, and the pour ends by its
  watchdog (R399). -/
  badSteps : List Nat := []
  /-- A page of it is lost for good: it is unloaded once its pours have ended (R399). -/
  doomed : Bool := false
  deriving DecidableEq, Repr

/-! ## Host links and functions -/

/-- A command that waits (R234). -/
inductive WaitCmd where
  | ctxDestroy (ctx : Nat) (allAborted : Bool)
  | regDeregister (key : Nat)
  /-- The fill of the region that a landing binding names (R154). -/
  | mcastBind (ep key : Nat)
  /-- The pantry reads already issued (R211). -/
  | pantryRemove (region : Bool)
  deriving DecidableEq, Repr

/-- The counter dump of a function (R416). -/
structure Dump where
  on : Bool := false
  base : Nat := 0
  log : Nat := 2
  period : Nat := 10
  vector : Nat := 0
  vectorEn : Bool := false
  rseq : Nat := 1
  pass : Nat := 0
  slot : Nat := 0
  last : Nat := 0
  deriving DecidableEq, Repr

/-- The descriptor trace and step sampling of a function (R418, R419). -/
structure Trace where
  on : Bool := false
  base : Nat := 0
  log : Nat := 6
  ringSet : Bool := false
  queue : Nat := 0
  all : Bool := false
  period : Nat := 1
  count : Nat := 0
  rseq : Nat := 1
  slot : Nat := 0
  stepOn : Bool := false
  stepPeriod : Nat := 1
  stepCount : Nat := 0
  stepPending : Option Nat := none
  vector : Nat := 0
  vectorEn : Bool := false
  deriving DecidableEq, Repr

/-- The Advanced Error Reporting registers of a function (R202), as PCI Express numbers their bits: errors
recorded, masks and severities. PRESUMED (log 8). -/
structure Aer where
  uncStatus : BitVec 32 := 0
  uncMask : BitVec 32 := 0x400000
  uncSeverity : BitVec 32 := 0x462030
  corStatus : BitVec 32 := 0
  corMask : BitVec 32 := 0x6000
  deriving DecidableEq, Repr

/-- A function of a host link: its per-function page (R222) and its own resources. -/
structure Fn where
  /-- A VF that VF Enable has brought up and that is ready (R208). -/
  ready : Bool := false
  flr : Bool := false
  badAccess : BitVec 32 := 0
  cfgErr : Bool := false
  /-- Registers that the next strobe of group 0 skips, and those that act as their reset value until
  software has written them (R230). -/
  skip : List Nat := []
  spoilt : List Nat := []
  evtQueueSh : BitVec 32 := 0
  evtQueue : BitVec 32 := 0
  /-- The maskable bits written by software; R232 fixes the others. None at reset. -/
  evtEnableSh : Option (BitVec 16) := none
  evtEnable : Option (BitVec 16) := none
  args : List (BitVec 64) := [0, 0, 0, 0]
  res0 : BitVec 64 := 0
  res1 : BitVec 64 := 0
  status : Nat := 0
  lastCode : Nat := 0
  overrun : Bool := false
  wait : Option WaitCmd := none
  lost : Nat := 0
  /-- By priority: the queue of the function that the poll budget served last (R254). -/
  lastQ : Tbl Nat := []
  /-- By priority: the queue of the function whose descriptor an engine took last (R254). -/
  lastIssued : Tbl Nat := []
  /-- By priority: the queue of the function for whose descriptor a host DMA agent read last (R254). -/
  lastAgent : Tbl Nat := []
  /-- The upper half latched by a lower-half read, and a lower-half write held, by the register's
  offset (R223). -/
  latch : Tbl (Option (BitVec 32)) := []
  heldLow : Tbl (Option (BitVec 32)) := []
  /-- Power state D3hot (R202, R220). -/
  d3hot : Bool := false
  atomicEn : Bool := false
  pasidEn : Bool := false
  aer : Aer := {}
  msixEn : Bool := false
  fnMask : Bool := false
  /-- MSI-X table words as written, by byte offset from 0xE000. -/
  msixTable : Tbl Nat := []
  pending : Tbl Bool := []
  dump : Dump := {}
  trace : Trace := {}
  deriving DecidableEq, Repr

/-- A pantry (R128, R154). -/
structure Pantry where
  on : Bool := false
  base : Nat := 0
  count : Nat := 0
  deriving DecidableEq, Repr

/-- A VF record of the tenant-global region (R239); fields by offset, all ones at reset. -/
structure VfRec where
  fields : Tbl Nat := []
  deriving DecidableEq, Repr

/-- The state of a host link (R373, R212). -/
inductive HlSt where
  | absent | inReset | training | dlActive
  deriving DecidableEq, Repr

/-- A range of the DMA addresses of a function, of one PASID or of the requests without one (R158, R202, R204). -/
structure Xlat where
  fid : Nat
  pasid : Option Nat
  addr : Nat
  len : Nat
  deriving DecidableEq, Repr

/-- A host link. -/
structure HostLink where
  st : HlSt := .absent
  perstHigh : Bool := false
  ready : Bool := false
  width : Nat := 0
  rate : Nat := 0
  numVfs : Nat := 0
  vfEnable : Bool := false
  clkreqLow : Bool := false
  /-- As system software sets them for the PF (R202): Max Payload Size, Max Read Request Size and 10-Bit
  Tag Requester Enable. PRESUMED (log 8). -/
  mps : Nat := 128
  mrrs : Nat := 512
  tag10 : Bool := false
  ctxPantry : Pantry := {}
  regPantry : Pantry := {}
  nextPd : Nat := 1
  freedCount : Nat := 0
  /-- Poll budget bucket (R253), in units of 10^-9 reads. -/
  bucket : Nat := 256000000000
  lastFn : Nat := 0
  -- tenant-global region
  faultVecSh : BitVec 32 := 0
  faultVec : BitVec 32 := 0
  rebindStatus : Nat := 0
  vfSh : Tbl VfRec := []
  vf : Tbl VfRec := []
  -- mailbox (R353)
  mbxCtrl : BitVec 32 := 0
  mbxBusy : Bool := false
  mbxDone : Bool := false
  mbxOverrun : Bool := false
  mbxReplyLen : Nat := 0
  mbxReq : Tbl Byte := []
  mbxReply : Bytes := []
  /-- The PF's DOE mailbox: the data object being written, and what is left of the one to be read (R202). -/
  doeIn : Bytes := []
  doeOut : Bytes := []
  -- ATS (R204): invalidations that wait, and ranges without a translation
  invWait : List (Xlat × Bool) := []
  noXlat : List Xlat := []
  deriving DecidableEq, Repr

/-- Where an IDP request came from: 10BASE-T1S source address, I3C endpoint ID or mailbox. -/
inductive IdpSource where
  | t1s (mac : Nat)
  | i3c (eid : Nat)
  | mailbox (hl : Nat)
  deriving DecidableEq, Repr

/-- An IDP request recorded and not yet executed (R359). -/
structure IdpReq where
  src : IdpSource
  msg : Bytes
  /-- The device was in quench when the request was recorded (R365). -/
  quenched : Bool := false
  deriving DecidableEq, Repr

/-- The sequence state of a principal (R356). -/
structure SeqState where
  high : Nat := 0
  /-- Accepted sequence numbers among the 64 below `high`. -/
  seen : List Nat := []
  /-- The last 8 accepted: sequence number, MAC and stored reply. -/
  replies : List (Nat × Bytes × Bytes) := []
  deriving DecidableEq, Repr

/-- An open transfer (R362). -/
structure Xfer where
  handle : Nat
  index : Nat
  sub : Nat
  principal : Nat
  length : Nat
  bytes : Bytes
  lastAt : Nat
  deriving DecidableEq, Repr

/-- An attestation report kept for a principal (R472). -/
structure Attest where
  nonce : Option Bytes := none
  report : Option Bytes := none
  deriving DecidableEq, Repr

/-! ## Locks -/

/-- A queued request for a lock cell (R337): master identity and the grant interrupt. -/
structure LockWait where
  master : Nat
  vector : Option Nat
  deriving DecidableEq, Repr

/-- A lock cell (R336 to R344). -/
structure Lock where
  owner : Nat := 0
  held : Bool := false
  orphaned : Bool := false
  forced : Bool := false
  mode : Nat := 0
  waiters : List LockWait := []
  /-- Masters whose last ACQUIRE, TRY or CLAIM was refused. -/
  refused : List Nat := []
  grantSeq : BitVec 16 := 0
  deriving DecidableEq, Repr

/-! ## Faults -/

/-- The fault registers of a block (R394). -/
structure Flt where
  status : BitVec 64 := 0
  source : Nat := 0
  more : Nat := 0
  time : Nat := 0
  detail : BitVec 64 := 0
  reaction : Nat := 0
  forced : Bool := false
  retiredUnits : List Nat := []
  /-- Units whose handshake has stalled since STALL was last clear (R401). -/
  stalled : List Nat := []
  /-- Times of the last block resets (R396). -/
  resets : List Nat := []
  /-- Sources raised after their region was retired, of whose reactions only INT acts (R402). -/
  late : BitVec 64 := 0
  /-- The upper half of FLT_STATUS as a read of its lower half latched it (R223). -/
  latch : Option (BitVec 32) := none
  /-- Writes of lower halves that wait for their upper halves: FLT_STATUS and FLT_FORCE (R223). -/
  heldStatus : Option (BitVec 32) := none
  heldForce : Option (BitVec 32) := none
  deriving DecidableEq, Repr

/-- A reaction that a raised source has called for and that has not acted yet (R395): the source's
code, its block and index, the mask, and the function concerned where there is one; `quench` says that it
brings quench whatever its mask holds (R403). -/
structure Reaction where
  code : Nat
  blk : Nat
  src : Nat
  mask : Nat
  fid : Option Nat := none
  quench : Bool := false
  deriving DecidableEq, Repr

/-- A word of a bank that is poisoned until it is written again (R398): its row and its place there, the carve
use that owns it, and which entry of that use it holds part of, where it holds one. -/
structure Poisoned where
  row : Nat
  word : Nat
  use : Nat
  entry : Option Nat
  deriving DecidableEq, Repr

/-- A bank of an SRAM group (R398). -/
structure Bank where
  spareRows : Nat := 4
  /-- By row: the last scrub pass in which it gave a corrected error, counted from 1. -/
  rowErrors : Tbl Nat := []
  retired : Bool := false
  poisoned : List Poisoned := []
  deriving DecidableEq, Repr

/-! ## Clocks and power -/

/-- A clock domain (R425 to R432). -/
structure Clk where
  srcSh : Nat := 0
  src : Nat := 0
  cur : Nat := 0
  switching : Bool := false
  /-- A source strobed while a switch was in progress (R426). -/
  queued : Option Nat := none
  hung : Bool := false
  gateSh : Bool := false
  gate : Bool := false
  gated : Bool := false
  gateAsked : Option Nat := none
  gateBusy : Bool := false
  held : Bool := false
  edges : Nat := 0
  stopped : Bool := false
  deriving DecidableEq, Repr

/-- A switched power domain (R446, R447). -/
inductive Pwr where
  | off | ramping | on
  deriving DecidableEq, Repr

/-- The power controller's view of one domain. -/
structure PwrDom where
  st : Pwr := .off
  /-- A switch asked for while ramping or waiting for a slot: true for on. -/
  want : Option Bool := none
  offAt : Nat := 0
  quietAsked : Option Nat := none
  /-- The request came from a dictionary write, whose reply waits. -/
  busy : Bool := false
  deriving DecidableEq, Repr

/-- Where the package stands. -/
inductive Phase where
  /-- Held by a power-on reset or by PORST_N. -/
  | held
  /-- Start-up meets a fault that resets the device before step 13 (R456). -/
  | starting
  /-- Running: start-up has been through. -/
  | running
  /-- In recovery mode (R454): only IDP on 10BASE-T1S and I3C. -/
  | recovery
  /-- The service processor halts at its reset vector (R454). -/
  | debugHold
  /-- The production test program of R493. -/
  | testProgram
  /-- Stopped by the AON logic with FOSC stopped (R430). -/
  | dead
  deriving DecidableEq, Repr

/-! ## Security -/

/-- An owner slot (R461). -/
structure OwnerSlot where
  keyHash : Bytes := []
  secret : Bytes := []
  policy : Nat := 0
  check : Bool := false
  spoiled : Bool := false
  deriving DecidableEq, Repr

/-- The fuses of R461, with those R371 reports. -/
structure Fuses where
  vendorRoot0 : Bytes := []
  vendorRoot1 : Bytes := []
  rootRevoke : Nat := 0
  identityI : Bytes := []
  identitySeed : Bytes := []
  identityRoot : Bytes := []
  identityWritten : Bool := false
  provisioned : Bool := false
  vendorSecret : Bytes := []
  transferSecret : Bytes := []
  epoch : Nat := 0
  slots : Tbl OwnerSlot := []
  retired : Bool := false
  leafUsed : Nat := 0
  minSvn : Nat := 0
  vendorId : Nat := 0
  enterpriseNo : Nat := 0
  serial : Bytes := []
  macAddr : Nat := 0
  i3cPid : Nat := 0
  /-- Whether the readback of the next burning fails (R479): which ones do is the part's (log 92). -/
  burnFails : Bool := false
  deriving DecidableEq, Repr

/-- A firmware slot of the flash (R465). -/
structure FwSlot where
  image : Bytes := []
  /-- The image the part is delivered with, which verifies; its bytes are not kept (log 22). -/
  shipped : Bool := false
  deriving DecidableEq, Repr

/-- What the flash holds (R348, R465, R469, R480). -/
structure Flash where
  /-- Stored values of persistent objects, keyed by index × 256 + sub; none where nothing is stored. -/
  objects : Tbl (Option Nat) := []
  /-- Stored fences and FLT_REACT masks, and the partitions and blocks that have something stored. -/
  fences : Tbl Nat := []
  fenceStored : List Nat := []
  react : Tbl Nat := []
  reactStored : List Nat := []
  /-- Keys of stored objects whose value fails its flash check (R348), and whether the next store fails
  (R364): which ones is the part's (log 92). -/
  bad : List Nat := []
  failNext : Bool := false
  /-- The identity cache (R469): none while every node stands as the device wrote it, else the count at
  which the free bytes of its nodes are taken (log 93). -/
  cacheAt : Option Nat := some 0
  /-- Life-cycle state and epoch the store was written under (R480). -/
  storeState : Nat := 0
  storeEpoch : Nat := 0
  slot0 : FwSlot := { shipped := true }
  slot1 : FwSlot := {}
  running : Nat := 0
  caPub : Bytes := []
  caSig : Bytes := []
  floors : List Nat := [0, 0, 0]
  bootCount : Nat := 0
  deriving DecidableEq, Repr

/-- The persistent object store as `CONFIG_HASH` covers it (R471). -/
structure StoreImage where
  objects : Tbl (Option Nat) := []
  fences : Tbl Nat := []
  react : Tbl Nat := []
  deriving DecidableEq, Repr

/-- The attestation state in service-processor SRAM (R470). -/
structure LowerTree where
  made : Bool := false
  /-- Reports signed. -/
  used : Nat := 0
  /-- The identity leaf that certified the tree, and its signature. -/
  leaf : Nat := 0
  cert : Bytes := []
  /-- Identifier and seed of the tree, and its root. -/
  ident : Bytes := []
  seed : Bytes := []
  root : Bytes := []
  deriving DecidableEq, Repr

/-! ## What the block drives outward -/

/-- How the device takes its turn on the mixing segment of 10BASE-T1S (R351): by CSMA/CD, as the PLCA
coordinator of so many nodes, or as a PLCA node. -/
inductive PlcaRole where
  | csmaCd
  | coordinator (nodes : Nat)
  | node (id : Nat)
  deriving DecidableEq, Repr

/-- One thing the block has done that the outside world can see. -/
inductive Out where
  | flit (p : Nat) (bytes : Bytes)
  /-- A posted write on a host link with a function's requester ID (R158, R245). -/
  | hostWrite (hl fid : Nat) (pasid : Option Nat) (relaxed : Bool) (addr : Nat) (data : Bytes)
  /-- A read at `src` whose bytes are written at `dst`, each with its PASID, by the copy out of an
  overflow piece (R158, R183). -/
  | hostCopy (hl fid src : Nat) (srcPasid : Option Nat) (dst : Nat) (dstPasid : Option Nat) (len : Nat)
  /-- The read of a pantry entry, under the PF's requester ID (R129). -/
  | pantryRead (hl fid addr len : Nat)
  | msix (hl fid vector : Nat)
  | readiness (hl fid : Nat)
  | invDone (hl : Nat) (range : Xlat)
  /-- A reply on 10BASE-T1S, sent in the device's turn (R351). -/
  | t1sFrame (role : PlcaRole) (frame : T1sFrame)
  /-- The in-band interrupt that announces an MCTP reply on I3C, and a message to an endpoint ID in its
  transmission units, type byte first (R352). -/
  | i3cInterrupt
  | mctpUnits (eid : Nat) (units : List Bytes)
  /-- The provisional ID that the target puts into ENTDAA (R352). -/
  | i3cProvisional (pid : Nat)
  | doeReply (hl : Nat) (msg : Bytes)
  | mctpReply (body : Bytes)
  | avsWrite (mv : Nat)
  | spInt (code : Nat)
  | spTrap (code : Nat)
  | abort (who : Accessor) (addr : Nat)
  /-- Request Retry Status to a configuration request (R208, R212). -/
  | retry (who : Accessor) (addr : Nat)
  | busError (addr : Nat) (gated : Bool)
  | regData (who : Accessor) (addr : Nat) (value : Nat)
  | tdo (value : Nat)
  | ppsOut
  deriving DecidableEq, Repr

/-! ## The whole -/

/-- Fabric time of this node (R90 to R93). -/
structure TimeSt where
  now : Nat := 0
  synced : Bool := false
  stratum : Nat := 255
  parent : Option Nat := none
  lastOffset : Int := 0
  /-- Offset still to be slewed away, in ns, and the ns left to do it in. -/
  slew : Int := 0
  slewLeft : Nat := 0
  goodOffsets : Nat := 0
  nextSecond : Option Nat := none
  lastPps : Option Nat := none
  /-- The latest second reached, and the seconds that have had their pulse, as first and last of each run,
  the latest run first (R501). -/
  lastPulse : Nat := 0
  pulsed : List (Nat × Nat) := []
  stepped : Bool := false
  started : Bool := false
  deriving DecidableEq, Repr

/-- The governor and the tempo meters (R434 to R438). -/
structure GovSt where
  tempo : List Nat := [0, 0, 0, 0]
  /-- The last 16 counts of each region's meter. -/
  counts : List (List Nat) := [[], [], [], []]
  vdd : Nat := 0
  ma : Nat := 0
  atLimit : Bool := false
  lowTempo : Bool := false
  episodes : Nat := 0
  avsFault : Bool := false
  deriving DecidableEq, Repr

/-- Ports, router, trees. -/
structure Net where
  ports : Tbl Port := []
  /-- Packets received whole, per input port and VC (16 × port + VC), oldest first. -/
  rxQ : Tbl (List Pkt) := []
  /-- Packets forwarded to an output port, per port and VC, oldest first. -/
  outQ : Tbl (List QPkt) := []
  /-- The number the next place in an input buffer takes. -/
  nextPlace : Nat := 0
  /-- Packets at the local injection point, per VC. -/
  injQ : Tbl (List Pkt) := []
  /-- Packets the router has made itself, at the injection point, per VC, each with the ports that it
  goes to: DELIVERY_REPORTs, gather results and floods (R116, R290, R294). -/
  madeQ : Tbl (List (Pkt × List Nat)) := []
  /-- Tree packets with copies left to make, by input and VC (R105). -/
  copying : Tbl (Option Copying) := []
  /-- The input an output VC's round robin served last (R105); 16 for the injection point. -/
  rrIn : Tbl Nat := []
  /-- Output ports whose injection throttle is on (R104). -/
  throttled : Tbl Bool := []
  delivery : List Arrival := []
  /-- The path book by node ID (R95), and detour segments (R106), whole entries as bytes. -/
  paths : Tbl Bytes := []
  segments : Tbl Bytes := []
  sprue : Tbl Nat := []
  /-- Partition bitmaps: partition × 262,144 + node, holding the bit where it differs from its
  default (R378). -/
  fences : Tbl Nat := []
  reports : List ReportRec := []
  /-- Records closed lately, newest first: a contribution to one is late (R116, log 26). -/
  closedReports : List (Nat × BitVec 32) := []
  /-- Inputs (16 × input + VC) whose head gather packet waits for a record (R281). -/
  gatherHeld : List Nat := []
  /-- Privileged packets dropped and not yet acted on: the pour of each breaks (R117). -/
  lostPriv : List Pkt := []
  treeSeq : Tbl Nat := []
  /-- MCAST_PUT packets at the root whose report has not arrived: tree, key, operation. -/
  mcastOut : List (Nat × BitVec 32 × Nat) := []
  deriving DecidableEq, Repr

/-- A payload read that waits (R130, R154, R213): for the entry of its region, or for room in host
staging. -/
structure ReadWait where
  op : Nat
  off : Nat
  len : Nat
  deriving DecidableEq, Repr

/-- Connections, protection and matching. -/
structure Transport where
  ctxs : Tbl Ctx := []
  ops : List (Nat × Op) := []
  nextOp : Nat := 0
  dma : List DmaReq := []
  nextTag : Nat := 0
  atomics : List AtomicEntry := []
  fillStash : List Arrival := []
  readWait : List ReadWait := []
  pds : Tbl Pd := []
  eps : Tbl Ep := []
  regs : Tbl Reg := []
  /-- The atomic pool: 8-byte words. -/
  pool : Tbl (BitVec 64) := []
  mctxs : Tbl Mctx := []
  inflight : List (Nat × InFlight) := []
  placeWait : List (Nat × PlaceWaiter) := []
  deriving DecidableEq, Repr

/-- Queues, host links, functions, lock cells. -/
structure HostSide where
  queues : Tbl Queue := []
  links : Tbl HostLink := []
  fns : Tbl Fn := []
  /-- By region: the function whose descriptor a transport engine took last (R254). -/
  issueFn : Tbl Nat := []
  /-- By region: the function for whose descriptor a host DMA agent read last (R254). -/
  agentFn : Tbl Nat := []
  locks : Tbl Lock := []
  deriving DecidableEq, Repr

/-- Moulds, slot space and gather records. -/
structure MouldSide where
  moulds : Tbl Mould := []
  /-- Slot space, keyed by index × 2^25 + slot address; unlisted bytes are not written since the
  pages were zeroed or a pour broke. -/
  slots : Tbl (Option Byte) := []
  /-- Words of slot space that stand poisoned, by their key over 8 (R398, R399). -/
  badSlots : List Nat := []
  gathers : List GatherRec := []
  /-- Pours whose break this node has met lately, newest first (R294, R302, log 141). -/
  freed : List BrokenPour := []
  deriving DecidableEq, Repr

/-- The dictionary, its transports and what the service processor keeps. -/
structure Mgmt where
  /-- Scalar objects, keyed by index × 256 + sub. -/
  dict : Tbl Nat := []
  idpQ : List IdpReq := []
  seqs : Tbl SeqState := []
  xfers : List Xfer := []
  /-- Requests whose reply waits: for the load checks of mould index `k` (R276), or, as 1024 + e,
  for the quiescence of power domain `e` (R382). -/
  loadWait : List (Nat × IdpReq) := []
  attest : Tbl Attest := []
  lower : LowerTree := {}
  /-- The persistent store as step 9 of start-up loaded it (R471). -/
  loaded : StoreImage := {}
  lcResult : Nat := 0
  fwState : Nat := 0
  fwStaged : Nat := 0
  /-- A life-cycle change is waiting for its chip reset, due at this time (R479). -/
  lcReset : Option Nat := none
  /-- A chip reset asked for through the dictionary starts once its reply is sent (R372). -/
  rstAsked : Bool := false
  plcaId : Nat := 255
  plcaCount : Nat := 8
  /-- A change of the two waits for its reply to be sent (R372). -/
  plcaDue : Bool := false
  i3cAddr : Option Nat := none
  mctpEid : Nat := 0
  /-- Replies that wait for the management network's clock domain (R23). -/
  mnetWait : List Out := []
  defaulted : Nat := 0
  defaultedLast : Nat := 0
  fuses : Fuses := {}
  vddFuse : Bool := true
  flash : Flash := {}
  deriving DecidableEq, Repr

/-- Service-processor registers, faults, SRAM and counters. -/
structure Service where
  regionMask : Nat := 0
  clusterMask : Nat := 0
  /-- Shadow and active copies of grouped registers (R227, R229, R241), by address. -/
  spSh : Tbl Nat := []
  spAct : Tbl Nat := []
  quench : Bool := false
  quenchCause : Nat := 0
  flt : Tbl Flt := []
  /-- FLT_REACT masks, block × 64 + source, holding a mask that differs from its default. -/
  react : Tbl Nat := []
  reactSh : Tbl Nat := []
  /-- Gated blocks that apply the shadows of their masks once they are woken (R228). -/
  reactDue : List Nat := []
  reacts : List Reaction := []
  fatalLow : Bool := false
  regions : Nat := 0xF
  banks : Tbl Bank := []
  /-- Scrub passes of each group since the last wipe (R398). -/
  scrubPasses : Tbl Nat := []
  carve : Tbl Nat := []
  carveLost : Nat := 0
  carveFreeUsed : Nat := 0
  /-- Flits of ladle that a port has lost with a bank (R399). -/
  ladleLost : Tbl Nat := []
  rowsUsed : Nat := 0
  banksRetired : Nat := 0
  degraded : List Nat := []
  counters : Tbl Nat := []
  ctrEvent : Tbl (Nat × Nat × Nat) := []
  bwWindow : Nat := 1000
  bwNext : Option Nat := none
  bwEnd : Nat := 0
  /-- Fabric time was stepped in the window in progress. -/
  bwStepped : Bool := false
  /-- Poisoned words of the counter and trace staging that no record has met yet (R399, R417). -/
  stagingBad : Nat := 0
  deriving DecidableEq, Repr

/-- What the part and its board will do where the manual leaves it to them, each taken freely for the next
time after it has been met (log 166): flash that does not answer the boot ROM (R454), a fuse check that fails
(R455 step 6), crucible lanes that fail their self-check (R455 step 10), calibration resistors that are
missing or out of range, by lane die and then the PCIe one (R503), power lost in the middle of writing a
firmware slot or burning an owner slot (R465, R479), and a chip reset in the middle of writing a firmware slot, as
its `RESET_CAUSE`, 0 for none (R451, R465). -/
structure Luck where
  flashSilent : Bool := false
  fuseCheck : Bool := false
  lanes : Nat := 0
  rext : Nat := 0
  powerCut : Bool := false
  resetCut : Nat := 0
  deriving DecidableEq, Repr

/-- Clocks, tempo, power, straps and resets. -/
structure Platform where
  phase : Phase := .held
  plls : Tbl Bool := []
  /-- The switch of CLKOUT hangs on a stopped source: the output is low (R433). -/
  clkoutHung : Bool := false
  clks : Tbl Clk := []
  sosStopped : Bool := false
  gov : GovSt := {}
  time : TimeSt := {}
  pwr : Tbl PwrDom := []
  bifCode : Nat := 0
  bifStrap : Nat := 0
  bootMode : Nat := 0
  testMode : Bool := false
  resetCause : Nat := 0
  fromPowerOn : Bool := true
  earlyResets : Nat := 0
  /-- SRAM rows, by bank key, that fail the self-check of R453: a matter of the part (log 25). -/
  weakRows : List (Nat × Nat) := []
  luck : Luck := {}
  trstHigh : Bool := false
  /-- PORST_N is low, and a power-on reset of R445 holds the device. -/
  porstLow : Bool := true
  railHold : Bool := false
  deriving DecidableEq, Repr

/-- Everything the block holds but its queue of commands. Every meaning is a function on it. -/
structure Block extends Net, Transport, HostSide, MouldSide, Mgmt, Service, Platform where
  out : List Out := []
  /-- Nanoseconds the block has counted, and a count that free values are applied to. -/
  now : Nat := 0
  fresh : Nat := 128
  deriving DecidableEq, Repr

/-- The state of the T6416: the block, and the commands that wait, first in first out. -/
structure State extends Block where
  pending : List Instr := []
  deriving DecidableEq, Repr

/-- The machine right after reset: VDD_AON has risen and PORST_N is held low (R449). Every field
is at the value its declaration gives. -/
def State.reset : State := {}

end Sys2Proof.Machine
end

