-- ==== Sys2Proof/Machine/Tbl.lean ====
section
/-! DEFINITION. Reading and writing a sparse table (`Tbl`). The canonical form is: keys strictly
rising, and no entry equal to the default of its key, so that equal contents are equal data. -/

namespace Sys2Proof.Machine

/-- The value at key `k`; `d` where the table lists nothing. -/
def Tbl.get (d : α) : Tbl α → Nat → α
  | [], _ => d
  | (j, v) :: t, k => if j = k then v else Tbl.get d t k

/-- The table with `v` listed at key `k`, before the first larger key. -/
def Tbl.put : Tbl α → Nat → α → Tbl α
  | [], k, v => [(k, v)]
  | (j, w) :: t, k, v =>
    if j < k then (j, w) :: Tbl.put t k v
    else if j = k then (k, v) :: t
    else (k, v) :: (j, w) :: t

/-- Writing `v` at key `k`; writing the default removes the entry. -/
def Tbl.set [DecidableEq α] (d : α) (t : Tbl α) (k : Nat) (v : α) : Tbl α :=
  if v = d then List.filter (fun e => !(e.1 == k)) t else Tbl.put t k v

/-- All keys of the table are above `lo`, and rising. -/
def Tbl.above (lo : Nat) : Tbl α → Bool
  | [] => true
  | (j, _) :: t => decide (lo < j) && Tbl.above j t

/-- The keys rise. -/
def Tbl.rising : Tbl α → Bool
  | [] => true
  | (j, _) :: t => Tbl.above j t

/-- The canonical form, for the default `d k` of each key `k`. -/
def Tbl.wf [DecidableEq α] (d : Nat → α) (t : Tbl α) : Bool :=
  Tbl.rising t && List.all t fun e => !decide (e.2 = d e.1)

/-- The table without the keys that `p` picks. -/
def Tbl.drop (p : Nat → Bool) (t : Tbl α) : Tbl α :=
  List.filter (fun e => !p e.1) t

/-- The table with every listed value changed by `f`, defaults removed. -/
def Tbl.map [DecidableEq α] (d : α) (f : Nat → α → α) : Tbl α → Tbl α
  | [] => []
  | (j, v) :: t =>
    let rest := Tbl.map d f t
    if f j v = d then List.filter (fun e => !(e.1 == j)) rest else (j, f j v) :: rest

/-- The listed keys. -/
def Tbl.keys (t : Tbl α) : List Nat := List.map (·.1) t

/-- The number of listed entries that `p` picks. -/
def Tbl.count (p : Nat → α → Bool) (t : Tbl α) : Nat :=
  (List.filter (fun e => p e.1 e.2) t).length

end Sys2Proof.Machine
end

