-- ==== Sys2Proof/Machine/Operands.lean ====
section
/-! DEFINITION. The byte-laid formats: packets (R33 to R52), flits (R64, R81, R84, R90), ring
entries (R246 to R266), path-book, detour and sprue entries (R95 to R113). A packet's bytes from
32 on are read by their offset in the packet. -/

namespace Sys2Proof.Machine

/-! ## The route field -/

/-- `PTR` of the route control word (R36). -/
def Pkt.ptr (p : Pkt) : Nat := bits p.cw.toNat 5 0
/-- `LAST` (R36). -/
def Pkt.last (p : Pkt) : Nat := bits p.cw.toNat 10 6
/-- `HEAT` (R36). -/
def Pkt.heat (p : Pkt) : Nat := bits p.cw.toNat 17 11
/-- `MODE` (R36). -/
def Pkt.mode (p : Pkt) : Nat := bits p.cw.toNat 19 18
/-- `TREE` (R36). -/
def Pkt.tree (p : Pkt) : Nat := bits p.cw.toNat 31 20

/-- A route control word (R36). -/
def mkCw (ptr last heat mode tree : Nat) : BitVec 32 :=
  BitVec.ofNat 32 (ptr % 64 + last % 32 * 2 ^ 6 + heat % 128 * 2 ^ 11 + mode % 4 * 2 ^ 18 +
    tree % 4096 * 2 ^ 20)

/-- The packet with `PTR` and `HEAT` rewritten (R38). -/
def Pkt.setPtrHeat (p : Pkt) (ptr heat : Nat) : Pkt :=
  { p with cw := mkCw ptr p.last heat p.mode p.tree }

/-- Hop byte `i` with its `CW` bit cleared. -/
def Pkt.hop (p : Pkt) (i : Nat) : Nat := (nth 0 p.hops i).toNat
/-- `PORT` of a hop byte (R35). -/
def hopPort (h : Nat) : Nat := bits h 7 4
/-- `LAYER` of a hop byte (R35). -/
def hopLayer (h : Nat) : Nat := bits h 3 2
/-- `SPLICED` of a hop byte (R35). -/
def hopSpliced (h : Nat) : Bool := bit h 0

/-- The hop byte as it travels: bit 1 carries bit `i` of the control word (R36). -/
def hopWire (cw : BitVec 32) (i : Nat) (h : Byte) : Byte :=
  (h &&& 0xFD#8) ||| (if cw.getLsbD i then 2#8 else 0#8)

/-- The control word spread over the hop bytes, gathered again (R36). -/
def gatherCw (hops : List Byte) : BitVec 32 :=
  BitVec.ofNat 32 (leNat ((List.range 4).map fun k =>
    BitVec.ofNat 8 ((List.range 8).foldl
      (fun n j => if (nth 0 hops (8 * k + j)).getLsbD 1 then n + 2 ^ j else n) 0)))

/-- A packet as bytes on the wire (R33). -/
def Pkt.encode (p : Pkt) : Bytes :=
  (List.range 32).map (fun i => hopWire p.cw i (nth 0 p.hops i)) ++ p.rest

/-- The packet that `bs` spells: its route field taken apart (R33, R35, R36). -/
def Pkt.decode (bs : Bytes) : Pkt :=
  let route := slice bs 0 32
  { hops := route.map (· &&& 0xFD#8), cw := gatherCw route, rest := bs.drop 32 }

/-- A packet as the block holds it: 32 hop bytes, each with a clear `CW` bit. -/
def Pkt.wf (p : Pkt) : Bool :=
  decide (p.hops.length = 32) && p.hops.all (fun h => !h.getLsbD 1)

/-! ## Headers -/

/-- The field of `len` bytes at packet byte `off`, from byte 32 on. -/
def Pkt.at_ (p : Pkt) (off len : Nat) : Nat := fld p.rest (off - 32) len
/-- `HDR0` (R42). -/
def Pkt.hdr0 (p : Pkt) : Nat := p.at_ 32 4
/-- `KIND` (R42). -/
def Pkt.kind (p : Pkt) : Nat := bits p.hdr0 5 0
/-- `FORMAT` (R42). -/
def Pkt.format (p : Pkt) : Nat := bits p.hdr0 7 6
/-- `CLASS` (R42). -/
def Pkt.cls (p : Pkt) : Nat := bits p.hdr0 8 8
/-- `PRIV` (R42). -/
def Pkt.priv (p : Pkt) : Bool := bit p.hdr0 9
/-- `PVC` (R42). -/
def Pkt.pvc (p : Pkt) : Nat := bits p.hdr0 12 10
/-- `GRAINS` (R42). -/
def Pkt.grains (p : Pkt) : Nat := bits p.hdr0 21 13
/-- `PARTITION` (R42). -/
def Pkt.partition (p : Pkt) : Nat := bits p.hdr0 25 22
/-- `DST_FA` (R43). -/
def Pkt.dstFa (p : Pkt) : Nat := p.at_ 36 4
/-- `SRC_FA` (R43). -/
def Pkt.srcFa (p : Pkt) : Nat := p.at_ 40 4
/-- `PSN` of a data packet (R46), `KSPEC` of a control packet (R44). -/
def Pkt.psn (p : Pkt) : BitVec 32 := BitVec.ofNat 32 (p.at_ 44 4)
/-- `MSN` (R46). -/
def Pkt.msn (p : Pkt) : BitVec 32 := BitVec.ofNat 32 (p.at_ 48 4)
/-- `OFFSET` (R46). -/
def Pkt.offset (p : Pkt) : Nat := p.at_ 52 4
/-- `PLEN` (R46). -/
def Pkt.plen (p : Pkt) : Nat := bits (p.at_ 56 2) 12 0
/-- `ACK_REQ` (R46). -/
def Pkt.ackReq (p : Pkt) : Bool := bit (p.at_ 56 2) 13
/-- `CTX` of a data packet (R46). -/
def Pkt.dataCtx (p : Pkt) : Nat := bits (p.at_ 60 4) 25 0
/-- `CTX` of a packet: a data packet's own, or that of a control packet's payload (R44, R46). -/
def Pkt.ctxOf (p : Pkt) : Nat := if p.format = 0 then bits (p.at_ 52 4) 25 0 else p.dataCtx
/-- `PATH` of a data packet (R46). -/
def Pkt.path (p : Pkt) : Nat := bits (p.at_ 59 1) 1 0
/-- The 32-byte envelope, operation block or mould block (R47). -/
def Pkt.block (p : Pkt) : Bytes := slice p.rest 32 32
/-- The payload, its padding left out (R34). -/
def Pkt.payload (p : Pkt) : Bytes := slice p.rest 64 p.plen
/-- The packet's grains on the wire. -/
def Pkt.size (p : Pkt) : Nat := 2 + p.rest.length / 16

/-- The node part of a fabric address (R29). -/
def faNode (fa : Nat) : Nat := bits fa 31 14
/-- The endpoint part of a fabric address (R29). -/
def faEp (fa : Nat) : Nat := bits fa 13 0
/-- A fabric address (R29). -/
def mkFa (node ep : Nat) : Nat := node * 2 ^ 14 + ep

/-- The VC of R53 and R56, coded as in R64: 0 to 7 for G0 to G7, 8 to 15 for C0 to C7. -/
def Pkt.vcOn (p : Pkt) (layer : Nat) : Nat :=
  if p.priv then 8 + p.pvc else 2 * layer + p.cls

/-- `HDR0` from its fields (R42). -/
def mkHdr0 (kind format cls : Nat) (priv : Bool) (pvc grains part : Nat) : Nat :=
  kind + format * 2 ^ 6 + cls * 2 ^ 8 + b2n priv * 2 ^ 9 + pvc * 2 ^ 10 + grains * 2 ^ 13 +
    part * 2 ^ 22

/-- No route: 32 zero hop bytes, control word zero. -/
def noRoute : List Byte := zeros 32

/-- A control packet (R33, R44) without its route. -/
def ctlPkt (kind cls : Nat) (priv : Bool) (pvc part dst src kspec : Nat) (payload : Bytes) : Pkt :=
  { hops := noRoute, cw := 0,
    rest := toLe 4 (mkHdr0 kind 0 cls priv pvc 4 part) ++ toLe 4 dst ++ toLe 4 src ++
      toLe 4 kspec ++ slice payload 0 16 }

/-- What a data packet's transport header carries beside `HDR0` (R46). -/
structure DataHdr where
  kind : Nat
  cls : Nat := 0
  priv : Bool := false
  pvc : Nat := 0
  part : Nat
  dst : Nat
  src : Nat
  psn : BitVec 32 := 0
  msn : BitVec 32 := 0
  offset : Nat := 0
  ackReq : Bool := false
  /-- Echoed heat and its path, when one is echoed (R100). -/
  echo : Option (Nat × Nat) := none
  path : Nat := 0
  ctx : Nat := 0
  deriving DecidableEq, Repr

/-- A data packet (R33, R34, R46) without its route. -/
def dataPkt (h : DataHdr) (block payload : Bytes) : Pkt :=
  let n := payload.length
  let heat := match h.echo with
    | some (e, _) => e + 128
    | none => 0
  let path := match h.echo with
    | some (_, q) => q
    | none => h.path
  { hops := noRoute, cw := 0,
    rest := toLe 4 (mkHdr0 h.kind 1 h.cls h.priv h.pvc (6 + grainsOf n) h.part) ++ toLe 4 h.dst ++
      toLe 4 h.src ++ toLe 4 h.psn.toNat ++ toLe 4 h.msn.toNat ++ toLe 4 h.offset ++
      toLe 2 (n + b2n h.ackReq * 2 ^ 13) ++ toLe 1 heat ++ toLe 1 path ++ toLe 4 h.ctx ++
      slice block 0 32 ++ slice payload 0 (16 * grainsOf n) }

/-- The `KIND` values, by format (R44, R47): class, privileged, allowed `MODE`s. -/
def kindInfo (format kind : Nat) : Option (Nat × Bool × List Nat) :=
  match format, kind with
  | 0, 1 => some (1, false, [0])
  | 0, 2 => some (1, false, [0])
  | 0, 3 => some (0, false, [0])
  | 0, 4 => some (1, false, [0])
  | 0, 5 => some (1, false, [2])
  | 0, 6 => some (0, true, [0, 1])
  | 1, 1 => some (0, false, [0])
  | 1, 2 => some (0, false, [0])
  | 1, 3 => some (0, false, [0])
  | 1, 4 => some (0, false, [0])
  | 1, 5 => some (1, false, [0])
  | 1, 6 => some (0, false, [0])
  | 1, 7 => some (1, false, [0])
  | 1, 8 => some (0, false, [1])
  | 1, 9 => some (0, true, [0, 1, 2])
  | _, _ => none

/-- The header checks of R58 that need no route: `FORMAT`, `KIND`, `CLASS`, `PRIV`, `MODE`,
`PVC` against the privileged VC count, `GRAINS`, `PLEN`, and the tree rule of R41. -/
def Pkt.malformed (p : Pkt) (pvcCount : Nat) : Bool :=
  match kindInfo p.format p.kind with
  | none => true
  | some (cls, priv, modes) =>
    !(p.cls == cls) || !(p.priv == priv) || !modes.contains p.mode ||
    (if p.priv then decide (pvcCount ≤ p.pvc) else !(p.pvc == 0)) ||
    (if p.format = 0 then !(p.grains == 4)
      else decide (4096 < p.plen) || !(p.grains == 6 + grainsOf p.plen)) ||
    (!(p.mode == 0) && p.hops.any (fun h => !(h == 0)))

/-! ## Flits -/

/-- A flit's fields (R64). -/
structure Flit where
  ftype : Nat
  rr : Bool := false
  vc : Nat := 0
  start : Nat := 15
  used : Nat := 0
  cvcA : Nat := 0
  seq : BitVec 16 := 0
  ack : BitVec 16 := 0
  climA : Nat := 0
  cvcB : Nat := 0
  climB : Nat := 0
  payload : Bytes := []
  deriving DecidableEq, Repr

/-- Bytes 0 to 251 of a flit (R64). -/
def Flit.body (f : Flit) : Bytes :=
  toLe 1 (f.ftype + b2n f.rr * 16) ++ toLe 1 (f.vc + f.start * 16) ++ toLe 1 (f.used + f.cvcA * 16) ++
    toLe 2 f.seq.toNat ++ toLe 2 f.ack.toNat ++ toLe 2 f.climA ++ toLe 1 f.cvcB ++
    toLe 2 f.climB ++ slice f.payload 0 240

/-- The flit's 256 bytes, the CRC of R66 stored little-endian. -/
def Flit.encode (f : Flit) : Bytes := f.body ++ toLe 4 (crc32 f.body).toNat

/-- The fields that 256 bytes carry (R64). -/
def Flit.decode (bs : Bytes) : Flit :=
  let b0 := fld bs 0 1
  let b1 := fld bs 1 1
  let b2 := fld bs 2 1
  { ftype := bits b0 3 0, rr := bit b0 4, vc := bits b1 3 0, start := bits b1 7 4,
    used := bits b2 3 0, cvcA := bits b2 7 4, seq := BitVec.ofNat 16 (fld bs 3 2),
    ack := BitVec.ofNat 16 (fld bs 5 2), climA := fld bs 7 2, cvcB := bits (fld bs 9 1) 3 0,
    climB := fld bs 10 2, payload := slice bs 12 240 }

/-- The CRC of R66 holds. -/
def crcGood (bs : Bytes) : Bool := fld bs 252 4 == (crc32 (bs.take 252)).toNat

/-- Bytes as the stream carries them, least significant bit first (R62). -/
def byteBits (bs : Bytes) : List Bool := bs.flatMap fun v => (List.range 8).map v.getLsbD

/-- A byte from eight bits of the stream. -/
def bitsByte (l : List Bool) : Byte := BitVec.ofNat 8 (l.foldr (fun v n => b2n v + 2 * n) 0)

/-- The message bits between two alignment-marker groups, `n` of them, of a stream of flits (R62): as many
whole flits as fit, the first at the first bit, and zero filler after the last. -/
def groupStream (n : Nat) (flits : List Bytes) : List Bool :=
  let s := (flits.take (n / 2048)).flatMap byteBits
  s ++ List.replicate (n - s.length) false

/-- The flits that the message bits between two alignment-marker groups hold (R62): as many whole flits as
fit, the rest discarded as filler. -/
def groupFlits (s : List Bool) : List Bytes :=
  (List.range (s.length / 2048)).map fun i =>
    (List.range 256).map fun j => bitsByte ((s.drop (2048 * i + 8 * j)).take 8)

/-- A FILL flit (R65): the header is zero. -/
def fillFlit : Bytes :=
  let body := zeros 252
  body ++ toLe 4 (crc32 body).toNat

/-- The capability record as flit payload bytes 12 to 30 (R81). -/
def CapRec.encode (r : CapRec) : Bytes :=
  toLe 1 r.verMax ++ toLe 1 r.verMin ++
    toLe 1 (b2n r.peerSeen + b2n r.seamlessOk * 2 + b2n r.timeOk * 4 + b2n r.resume * 8) ++
    toLe 1 r.pvcCount ++ toLe 4 r.nodeId ++ toLe 2 r.machineId ++ toLe 2 r.partMask ++
    toLe 2 r.replayDepth ++ toLe 1 r.hbUnits ++ toLe 1 r.mode ++ toLe 2 r.resumeAck.toNat ++
    toLe 1 r.refuse

/-- The capability record of a CAPX flit's payload (R81). -/
def CapRec.decode (pl : Bytes) : CapRec :=
  let fl := fld pl 2 1
  { verMax := fld pl 0 1, verMin := fld pl 1 1, peerSeen := bit fl 0, seamlessOk := bit fl 1,
    timeOk := bit fl 2, resume := bit fl 3, pvcCount := fld pl 3 1,
    nodeId := bits (fld pl 4 4) 17 0, machineId := fld pl 8 2, partMask := fld pl 10 2,
    replayDepth := fld pl 12 2, hbUnits := fld pl 14 1, mode := bits (fld pl 15 1) 5 0,
    resumeAck := BitVec.ofNat 16 (fld pl 16 2), refuse := fld pl 18 1 }

/-- The nine modes of R61 by row: lanes in use and rate code of R81. -/
def modeRow (row : Nat) : Nat × Nat :=
  (match row % 3 with
    | 0 => 4
    | 1 => 2
    | _ => 1, 2 - row / 3)

/-- The lane masks a width may use (R61): x4 all, x2 the pairs L0 and L1 or L2 and L3, x1 one. -/
def laneMasks (width : Nat) : List Nat :=
  match width with
  | 4 => [15]
  | 2 => [3, 12]
  | 1 => [1, 2, 4, 8]
  | _ => []

/-- `MODE` as laid out in R81. -/
def mkMode (lanes rate : Nat) : Nat := lanes + rate * 16
/-- The lanes of a `MODE`. -/
def modeLanes (m : Nat) : Nat := bits m 3 0
/-- The rate code of a `MODE`. -/
def modeRate (m : Nat) : Nat := bits m 5 4

/-- The row of R61 that a `MODE` runs, if any. -/
def rowOf (m : Nat) : Option Nat :=
  (List.range 9).find? fun r =>
    (modeRow r).2 == modeRate m && (laneMasks (modeRow r).1).contains (modeLanes m)

/-- The rows of R61 in the order of R80: payload bandwidth from high to low, wider first. -/
def rowOrder : List Nat := [0, 3, 1, 6, 4, 2, 7, 5, 8]

/-- The row is tried before another under R80 when it stands earlier here. -/
def rowRank (row : Nat) : Nat := rowOrder.idxOf row

/-! ## Ring entries -/

/-- `CTRL` of a ring entry (R246). -/
def mkCtrl (owner phase done : Bool) (opcode flags status : Nat) : Nat :=
  b2n owner + b2n phase * 2 + b2n done * 4 + opcode * 2 ^ 8 + flags * 2 ^ 16 + status * 2 ^ 24

/-- `OWNER` of a ring entry. -/
def entOwner (e : Bytes) : Bool := bit (fld e 0 4) 0
/-- `PHASE` of a ring entry. -/
def entPhase (e : Bytes) : Bool := bit (fld e 0 4) 1
/-- `OPCODE` of a ring entry. -/
def entOpcode (e : Bytes) : Nat := fld e 1 1
/-- `FLAGS` of a ring entry. -/
def entFlags (e : Bytes) : Nat := fld e 2 1
/-- `MCAST` of a descriptor. -/
def entMcast (e : Bytes) : Bool := bit (entFlags e) 0

/-- The completion of a descriptor (R249, R262): `OWNER` 0, `DONE` 1, bytes 4 to 15 as posted,
the 24 result bytes, and the time. -/
def mkCompletion (desc : Bytes) (status : Nat) (result : Bytes) (tDone : Nat) : Bytes :=
  toLe 4 (mkCtrl false (entPhase desc) true (entOpcode desc) (entFlags desc) status) ++
    slice desc 4 12 ++ slice result 0 24 ++ zeros 16 ++ toLe 8 tDone

/-- A notification of a completion (R264, R265), its phase as the EQ's lap asks. -/
def mkNotification (phase : Bool) (q idx : Nat) (entry : Bytes) (lost time : Nat) : Bytes :=
  toLe 4 (mkCtrl false phase false 1 0 (fld entry 3 1)) ++ toLe 4 lost ++ toLe 8 time ++
    toLe 2 q ++ toLe 2 idx ++ toLe 1 (entOpcode entry) ++ zeros 3 ++ slice entry 8 8 ++
    slice entry 16 24 ++ zeros 8

/-- An asynchronous event entry (R264, R266); `body` holds bytes 16 onward. -/
def mkEvent (phase : Bool) (ty lost time : Nat) (body : Bytes) : Bytes :=
  toLe 4 (mkCtrl false phase false 2 ty 0) ++ toLe 4 lost ++ toLe 8 time ++ slice body 0 48

/-- The entry with `PHASE` set as given: what parking an entry leaves open until it is written. -/
def setPhase (entry : Bytes) (phase : Bool) : Bytes :=
  toLe 4 (setBit (fld entry 0 4) 1 phase) ++ entry.drop 4

/-! ## Routing tables -/

/-- One path of a path-book entry (R95, R96). -/
structure Path where
  hops : List Byte
  word : Nat
  deriving DecidableEq, Repr

/-- Path `j` of an entry: hop bytes without their path-word bits, and the path word. -/
def pathOf (entry : Bytes) (j : Nat) : Path :=
  let raw := slice entry (32 * j) 32
  { hops := raw.map (· &&& 0xFD#8), word := (gatherCw raw).toNat }

/-- `VALID` of a path word (R96). -/
def Path.valid (p : Path) : Bool := bit p.word 5
/-- `LAST` of a path word (R96). -/
def Path.last (p : Path) : Nat := bits p.word 4 0
/-- `BIAS` of a path word (R96). -/
def Path.bias (p : Path) : Nat := bits p.word 11 8

/-- What R97 asks of a path. -/
def Path.ok (p : Path) : Bool :=
  let h (i : Nat) : Nat := (nth 0 p.hops i).toNat
  if p.valid then
    (List.range 32).all fun i =>
      !bit (h i) 0 &&
      (if i < p.last then decide (hopLayer (h i) ≤ hopLayer (h (i + 1)))
        else i == p.last || h i == 0)
      && bits p.word 7 6 == 0 && bits p.word 31 12 == 0
  else p.word == 0 && p.hops.all (· == 0)

/-- What R97 asks of a 128-byte entry. -/
def pathEntryOk (entry : Bytes) : Bool := (List.range 4).all fun j => (pathOf entry j).ok

/-- The route field of a unicast packet from path `p` (R37, R96). -/
def Path.route (p : Path) : List Byte :=
  (List.range 32).map fun i => if i ≤ p.last then nth 0 p.hops i else 0

/-- `LEN` of a detour segment (R106). -/
def segLen (seg : Bytes) : Nat := bits (fld seg 8 1) 3 0

/-- What R106 asks of the segment for failed port `q`. -/
def segOk (seg : Bytes) (q : Nat) : Bool :=
  let k := segLen seg
  decide (k ≤ 8) && bits (fld seg 8 1) 7 4 == 0 && allZero (slice seg 9 7) &&
  ((List.range 8).all fun i =>
    let h := fld seg i 1
    if i < k then hopLayer h == 3 && bits h 1 0 == 0 else h == 0) &&
  (k == 0 || !(hopPort (fld seg 0 1) == q))

/-- `OUT_MASK` of a sprue word (R113). -/
def sprueOut (w : Nat) : Nat := bits w 15 0
/-- `LOCAL` (R113). -/
def sprueLocal (w : Nat) : Bool := bit w 16
/-- `PARENT` (R113). -/
def sprueParent (w : Nat) : Nat := bits w 20 17
/-- `ROOT` (R113). -/
def sprueRoot (w : Nat) : Bool := bit w 21
/-- `CHILD_COUNT` (R113). -/
def sprueChildren (w : Nat) : Nat := bits w 26 22
/-- `LAYER` (R113). -/
def sprueLayer (w : Nat) : Nat := bits w 28 27
/-- `VALID` (R113). -/
def sprueValid (w : Nat) : Bool := bit w 29

/-- The format checks of R113. -/
def sprueOk (w : Nat) : Bool :=
  sprueChildren w == popCount 16 (sprueOut w) + b2n (sprueLocal w) &&
  (sprueRoot w || !bit (sprueOut w) (sprueParent w)) && w / 2 ^ 30 == 0

end Sys2Proof.Machine
end

