-- ==== Sys2Proof/Machine/Ops.lean ====
section
/-! DEFINITION. The named operations over the block's tables, its settings, quotas and counters,
and what it drives toward the hosts: posted writes, interrupts, non-posted requests. -/

namespace Sys2Proof.Machine

/-! ## Tables -/

def Block.port (b : Block) (p : Nat) : Port := Tbl.get {} b.ports p
def Block.setPort (b : Block) (p : Nat) (v : Port) : Block :=
  { b with ports := Tbl.set {} b.ports p v }
def Block.modPort (b : Block) (p : Nat) (f : Port → Port) : Block := b.setPort p (f (b.port p))

def Block.ctx (b : Block) (c : Nat) : Ctx := Tbl.get {} b.ctxs c
def Block.setCtx (b : Block) (c : Nat) (v : Ctx) : Block := { b with ctxs := Tbl.set {} b.ctxs c v }
def Block.modCtx (b : Block) (c : Nat) (f : Ctx → Ctx) : Block := b.setCtx c (f (b.ctx c))

def Block.pd (b : Block) (k : Nat) : Pd := Tbl.get {} b.pds k
def Block.setPd (b : Block) (k : Nat) (v : Pd) : Block := { b with pds := Tbl.set {} b.pds k v }

def Block.ep (b : Block) (e : Nat) : Ep := Tbl.get {} b.eps e
def Block.setEp (b : Block) (e : Nat) (v : Ep) : Block := { b with eps := Tbl.set {} b.eps e v }
def Block.modEp (b : Block) (e : Nat) (f : Ep → Ep) : Block := b.setEp e (f (b.ep e))

def Block.reg (b : Block) (k : Nat) : Reg := Tbl.get {} b.regs k
def Block.setReg (b : Block) (k : Nat) (v : Reg) : Block := { b with regs := Tbl.set {} b.regs k v }
def Block.modReg (b : Block) (k : Nat) (f : Reg → Reg) : Block := b.setReg k (f (b.reg k))

def Block.mctx (b : Block) (k : Nat) : Mctx := Tbl.get {} b.mctxs k
def Block.setMctx (b : Block) (k : Nat) (v : Mctx) : Block :=
  { b with mctxs := Tbl.set {} b.mctxs k v }
def Block.modMctx (b : Block) (k : Nat) (f : Mctx → Mctx) : Block := b.setMctx k (f (b.mctx k))

def Block.queue (b : Block) (q : Nat) : Queue := Tbl.get {} b.queues q
def Block.setQueue (b : Block) (q : Nat) (v : Queue) : Block :=
  { b with queues := Tbl.set {} b.queues q v }
def Block.modQueue (b : Block) (q : Nat) (f : Queue → Queue) : Block := b.setQueue q (f (b.queue q))

def Block.link (b : Block) (n : Nat) : HostLink := Tbl.get {} b.links n
def Block.setLink (b : Block) (n : Nat) (v : HostLink) : Block :=
  { b with links := Tbl.set {} b.links n v }
def Block.modLink (b : Block) (n : Nat) (f : HostLink → HostLink) : Block :=
  b.setLink n (f (b.link n))

def Block.fn (b : Block) (fid : Nat) : Fn := Tbl.get {} b.fns fid
def Block.setFn (b : Block) (fid : Nat) (v : Fn) : Block := { b with fns := Tbl.set {} b.fns fid v }
def Block.modFn (b : Block) (fid : Nat) (f : Fn → Fn) : Block := b.setFn fid (f (b.fn fid))

def Block.lock (b : Block) (c : Nat) : Lock := Tbl.get {} b.locks c
def Block.setLock (b : Block) (c : Nat) (v : Lock) : Block :=
  { b with locks := Tbl.set {} b.locks c v }

def Block.mould (b : Block) (m : Nat) : Mould := Tbl.get {} b.moulds m
def Block.setMould (b : Block) (m : Nat) (v : Mould) : Block :=
  { b with moulds := Tbl.set {} b.moulds m v }
def Block.modMould (b : Block) (m : Nat) (f : Mould → Mould) : Block := b.setMould m (f (b.mould m))

def Block.fltOf (b : Block) (k : Nat) : Flt := Tbl.get {} b.flt k
def Block.setFlt (b : Block) (k : Nat) (v : Flt) : Block := { b with flt := Tbl.set {} b.flt k v }

def Block.bank (b : Block) (k : Nat) : Bank := Tbl.get {} b.banks k
def Block.setBank (b : Block) (k : Nat) (v : Bank) : Block := { b with banks := Tbl.set {} b.banks k v }

def Block.clk (b : Block) (d : Nat) : Clk := Tbl.get {} b.clks d
def Block.setClk (b : Block) (d : Nat) (v : Clk) : Block := { b with clks := Tbl.set {} b.clks d v }
def Block.modClk (b : Block) (d : Nat) (f : Clk → Clk) : Block := b.setClk d (f (b.clk d))

def Block.dom (b : Block) (d : Nat) : PwrDom := Tbl.get {} b.pwr d
def Block.setDom (b : Block) (d : Nat) (v : PwrDom) : Block := { b with pwr := Tbl.set {} b.pwr d v }
def Block.modDom (b : Block) (d : Nat) (f : PwrDom → PwrDom) : Block := b.setDom d (f (b.dom d))

/-- The packets waiting in a queue of a table of queues. -/
def queueOf (t : Tbl (List α)) (k : Nat) : List α := Tbl.get [] t k

/-- An operation under way. -/
def Block.op (b : Block) (o : Nat) : Option Op := lookup o b.ops
def Block.modOp (b : Block) (o : Nat) (f : Op → Op) : Block := { b with ops := update1 o f b.ops }
def Block.dropOp (b : Block) (o : Nat) : Block := { b with ops := erase1 o b.ops }

/-- A new operation and its number. -/
def Block.addOp (b : Block) (o : Op) : Nat × Block :=
  (b.nextOp, { b with ops := b.ops ++ [(b.nextOp, o)], nextOp := b.nextOp + 1 })

def Block.msg (b : Block) (k : Nat) : Option InFlight := lookup k b.inflight
def Block.modMsg (b : Block) (k : Nat) (f : InFlight → InFlight) : Block :=
  { b with inflight := update1 k f b.inflight }

/-! ## Objects and settings -/

/-- The value of a scalar object. -/
def Block.obj (b : Block) (idx sub : Nat) : Nat :=
  Tbl.get (objDefault idx sub) b.dict (objKey idx sub)
/-- Set the value of a scalar object. -/
def Block.setObj (b : Block) (idx sub v : Nat) : Block :=
  { b with dict := Tbl.set (objDefault idx sub) b.dict (objKey idx sub) v }

/-- The node ID (R30). -/
def Block.nodeId (b : Block) : Nat := b.obj 0x1010 0
/-- Setting `sub` of port `p` (R375). -/
def Block.portObj (b : Block) (p sub : Nat) : Nat := b.obj (0x3100 + p) sub
/-- `FILL_SCALE` in force (R121). -/
def Block.fillScale (b : Block) : Nat := b.obj 0x4010 1
/-- `TIME_PERIOD` in ns (R90). -/
def Block.timePeriod (b : Block) : Nat := b.obj 0x7010 3 * 1000

/-- Data, control and mould work runs: start-up is through and the device is not in quench. -/
def Block.live (b : Block) : Bool := b.phase == .running && !b.quench

/-- Fabric time in ns, as stamps read it (R408). -/
def Block.ftime (b : Block) : Nat := b.time.now

/-! ## Free choices -/

/-- A number below `n` that the manual leaves open (0 where `n` is 0). -/
def Block.choose (b : Block) (n : Nat) : Nat × Block :=
  (Config.freeNat b.fresh n % n, { b with fresh := b.fresh + 1 })

/-- Store the object of this key in flash: whether the store holds, with what the part does to the value
and to the next store left open (R348, R364, log 92). -/
def Block.storeFlash (b : Block) (key : Nat) : Bool × Block :=
  let (k, b) := b.choose 4
  let f := b.flash
  if f.failNext then (false, { b with flash := { f with failNext := bit k 0 } })
  else
    let bad := f.bad.filter fun e => e != key
    (true, { b with flash := { f with failNext := bit k 0, bad := if bit k 1 then key :: bad else bad } })

/-- Store the objects of these keys together (R369): all hold, or none is changed. -/
def Block.storeAll (b : Block) (keys : List Nat) : Bool × Block :=
  let (k, b) := b.choose (2 ^ (keys.length + 1))
  let f := b.flash
  if f.failNext then (false, { b with flash := { f with failNext := bit k 0 } })
  else
    let spoilt := (keys.mapIdx fun i key => (bit k (i + 1), key)).filterMap fun e =>
      if e.1 then some e.2 else none
    let bad := f.bad.filter fun e => !keys.contains e
    (true, { b with flash := { f with failNext := bit k 0, bad := spoilt ++ bad } })

/-- Entry `entry` of carve use `use` is written whole: the poisoned words that hold it are written again
(R398). -/
def Block.rewritten (b : Block) (use entry : Nat) : Block :=
  { b with banks := Tbl.map {} (fun _ k =>
      { k with poisoned := k.poisoned.filter fun w => !(w.use == use && w.entry == some entry) }) b.banks }

/-- The number that names entry `k` of table `t` among those of carve use 17: the sprue, the detour segments
and the partition bitmaps (R389). -/
def tableEntry (t k : Nat) : Nat := 3 * k + t

/-- The live regions, rising. -/
def Block.liveRegions (b : Block) : List Nat := bitList 4 b.regions

/-- The regions of a list that carry the least load. -/
def leastLoaded (rs : List Nat) (load : Nat → Nat) : List Nat :=
  rs.filter fun r => rs.all fun q => decide (load r ≤ load q)

/-- A home among the live regions, balanced by the homes that each has (R20). -/
def Block.newHome (b : Block) (load : Nat → Nat) : Nat × Block :=
  let rs := leastLoaded b.liveRegions load
  let (i, b) := b.choose rs.length
  (nth 0 rs i, b)

/-- Homes of connections, queues, matching contexts and pours in region `r` (R20). -/
def Block.ctxHomes (b : Block) (r : Nat) : Nat := Tbl.count (fun _ x => x.st != .free && x.home == r) b.ctxs
def Block.queueHomes (b : Block) (r : Nat) : Nat := Tbl.count (fun _ x => x.live && x.home == r) b.queues
def Block.mctxHomes (b : Block) (r : Nat) : Nat := Tbl.count (fun _ x => x.live && x.home == r) b.mctxs
def Block.pourHomes (b : Block) (r : Nat) : Nat :=
  b.moulds.foldl (fun n e => n + (e.2.pours.filter fun p => p.home == r).length) 0

/-! ## Host links, functions and quotas -/

/-- Lanes of host link `n` under bifurcation code `code` (R199). -/
def linkWidth (code n : Nat) : Nat :=
  match code, n with
  | 0, 0 => 16
  | 1, 0 => 8
  | 1, 1 => 8
  | 2, 0 => 4
  | 2, 1 => 4
  | 2, 2 => 4
  | 2, 3 => 4
  | 3, 0 => 8
  | 3, 1 => 4
  | 3, 2 => 4
  | _, _ => 0

/-- Host link `n` is present under the code in force. -/
def Block.present (b : Block) (n : Nat) : Bool := 0 < linkWidth b.bifCode n

/-- The function key of function `f` of host link `hl`. -/
def fidOf (hl f : Nat) : Nat := hl * 128 + f
/-- The host link of a function. -/
def fidLink (fid : Nat) : Nat := fid / 128
/-- The function number of a function: 0 the PF. -/
def fidFn (fid : Nat) : Nat := fid % 128
/-- Master identity (R333). -/
def masterOf (fid : Nat) : Nat := fidLink fid * 1024 + fidFn fid * 8

/-- The function answers configuration requests: its link is ready, and a VF is enabled and ready
(R208, R210, R212). -/
def Block.fnThere (b : Block) (fid : Nat) : Bool :=
  let l := b.link (fidLink fid)
  let f := b.fn fid
  b.present (fidLink fid) && l.st == .dlActive && l.ready && !f.flr &&
  (fidFn fid == 0 || (l.vfEnable && decide (fidFn fid ≤ l.numVfs) && f.ready))

/-- Record an uncorrectable error of a function in its AER status (R202), by the bit of PCI Express. -/
def Block.aerSet (b : Block) (fid n : Nat) : Block :=
  b.modFn fid fun f => { f with aer := { f.aer with uncStatus := f.aer.uncStatus ||| (1#32 <<< n) } }

/-- The function or its PF is in D3hot (R202, R220, log 123). -/
def Block.asleep (b : Block) (fid : Nat) : Bool :=
  (b.fn fid).d3hot || (b.fn (fidOf (fidLink fid) 0)).d3hot

/-- The function answers accesses to its BAR0: it is in D0 as well. -/
def Block.fnUp (b : Block) (fid : Nat) : Bool := b.fnThere fid && !b.asleep fid

/-- The function exists and no reset of it is in progress. -/
def Block.fnLive (b : Block) (fid : Nat) : Bool :=
  let l := b.link (fidLink fid)
  b.present (fidLink fid) && !(b.fn fid).flr &&
  (fidFn fid == 0 || (l.vfEnable && decide (fidFn fid ≤ l.numVfs)))

/-- The device starts work of its own for the function: it is live and in D0 (log 123). -/
def Block.fnRuns (b : Block) (fid : Nat) : Bool := b.fnLive fid && !b.asleep fid

/-- A lane share (R213). -/
def laneShare (total width : Nat) : Nat := total * width / 16 / 8 * 8

/-- The carve of element `e` in KiB where none is stored (R389); 18 is the free pool. -/
def carveDefault (e : Nat) : Nat := if e = 18 then 7168 else (nth (0, none) carveRows (e - 1)).1
/-- `CARVE_ACTIVE` element `e` in KiB (R388). -/
def Block.carveOf (b : Block) (e : Nat) : Nat := Tbl.get (carveDefault e) b.carve e
/-- Set element `e` of the active carve. -/
def Block.setCarve (b : Block) (e v : Nat) : Block :=
  { b with carve := Tbl.set (carveDefault e) b.carve e v }

/-- The device total behind a lane-share quota (R213, R390). -/
def Block.quotaTotal (b : Block) (k : Nat) : Nat :=
  match k with
  | 1 => 32768
  | 3 => 16384
  | 6 => 65536
  | 8 => 262144
  | 10 => 131072
  | 11 => 131072
  | 12 => 65536
  | 13 => b.carveOf 10 * 16
  | 14 => 1048576
  | 15 => b.carveOf 5
  | 20 => 240
  | _ => 0

/-- The all-ones value of quota `k`. -/
def quotaAuto (k : Nat) : Nat := if k ≤ 15 then auto32 else auto8

/-- Quota `k` has a lane-share default, so all ones stands for AUTO (R213, R368). -/
def quotaHasAuto (k : Nat) : Bool := [1, 2, 3, 6, 8, 10, 11, 12, 13, 14, 15, 19, 20].contains k

/-- Quota `k` of host link `n`, counts only, AUTO resolved (R213, R215). -/
def Block.quotaCount (b : Block) (n k : Nat) : Nat :=
  let v := b.obj (0x2010 + n) k
  if quotaHasAuto k && v == quotaAuto k then
    let s := laneShare (b.quotaTotal k) (linkWidth b.bifCode n)
    if k = 6 ∨ k = 8 then s / 2 else s
  else v

/-- Quota `k` of host link `n`, AUTO resolved; an AUTO range starts after the lane shares of the
host links before it (R213, R334). -/
def Block.quota (b : Block) (n k : Nat) : Nat :=
  if (k = 2 ∨ k = 19) ∧ b.obj (0x2010 + n) k = quotaAuto k then
    (List.range n).foldl
      (fun a j => a + laneShare (b.quotaTotal (k + 1)) (linkWidth b.bifCode j)) 0
  else b.quotaCount n k

/-- The field of VF record `k` at record offset `off` in the active copy; none where its bits are
all ones, which sets no cap (R239, R240). -/
def vfFieldWidth (off : Nat) : Nat :=
  match off with
  | 0x00 => 16
  | 0x04 => 15
  | 0x08 => 20
  | 0x0C => 25
  | 0x10 => 25
  | 0x14 => 17
  | 0x18 => 18
  | 0x1C => 18
  | 0x20 => 17
  | 0x24 => 18
  | 0x28 => 21
  | 0x2C => 16
  | 0x30 => 4
  | 0x34 => 16
  | _ => 0

/-- Reset value of a VF record field: all ones for a cap, zero for partition and fault vector
(R240; log 7 for the vector). -/
def vfFieldReset (off : Nat) : Nat := if off < 0x30 then 2 ^ vfFieldWidth off - 1 else 0

/-- A field of a VF record. -/
def VfRec.get (r : VfRec) (off : Nat) : Nat := Tbl.get (vfFieldReset off) r.fields off
/-- A VF record with a field set. -/
def VfRec.set (r : VfRec) (off v : Nat) : VfRec :=
  { r with fields := Tbl.set (vfFieldReset off) r.fields off v }

/-- The active VF record of a VF. -/
def Block.vfRec (b : Block) (fid : Nat) : VfRec := Tbl.get {} (b.link (fidLink fid)).vf (fidFn fid)

/-- The cap of a VF at record offset `off`, or `quota` where none is set; a PF has no cap. -/
def Block.cap (b : Block) (fid off quota : Nat) : Nat :=
  if fidFn fid = 0 then quota
  else
    let v := (b.vfRec fid).get off
    if v = vfFieldReset off then quota else v

/-- A creation of a counted object is within both counts (R213, R216): `here` counts the
function's, `all` the host link's. -/
def Block.within (b : Block) (fid k off here all add : Nat) : Bool :=
  let q := b.quota (fidLink fid) k
  decide (all + add ≤ q) && decide (here + add ≤ b.cap fid off q)

/-- Endpoint range of a host link (R213). -/
def Block.epInRange (b : Block) (hl e : Nat) : Bool :=
  decide (b.quota hl 2 ≤ e) && decide (e < b.quota hl 2 + b.quota hl 3)

/-- The bit of node `node` in partition `q` (R31, R378): partition 0 holds every node by default. -/
def Block.member (b : Block) (q node : Nat) : Bool :=
  Tbl.get (b2n (q == 0)) b.fences (q * 262144 + node) == 1

/-! ## Counters -/

/-- Where a 48-bit counter stays (R406). -/
def counterMax : Nat := 2 ^ 48 - 1

/-- The value of counter `c`. -/
def Block.counter (b : Block) (c : Nat) : Nat := Tbl.get 0 b.counters c

/-- Add `n` to counter `c`; saturating, and not in quench (R406, R421). -/
def Block.count (b : Block) (c n : Nat) : Block :=
  if b.quench then b
  else { b with counters := Tbl.set 0 b.counters c (min (b.counter c + n) counterMax) }

/-- Counter `k` of port `p` (R409). -/
def portCtr (p k : Nat) : Nat := 32 * p + k

/-- The tenant counters of host link `n` (R412): base and count. -/
def Block.ctrRange (b : Block) (n : Nat) : Nat × Nat :=
  let base := b.obj (0x9020 + n) 1
  let cnt := b.obj (0x9020 + n) 2
  ((if base = auto16 then
      (List.range n).foldl (fun a j => a + laneShare 2560 (linkWidth b.bifCode j)) 1536
    else base),
   if cnt = auto16 then laneShare 2560 (linkWidth b.bifCode n) else cnt)

/-- Count event `ev` of function `fid`, and of queue `q` where it has one, on every share counter
programmed for it (R413). -/
def Block.countEvent (b : Block) (ev fid : Nat) (q : Option Nat) (n : Nat) : Block :=
  let r := b.ctrRange (fidLink fid)
  b.ctrEvent.foldl (fun b e =>
    let (c, (ev', scope, target)) := e
    if ev' = ev ∧ r.1 ≤ c ∧ c < r.1 + r.2 ∧
        (scope = 0 ∨ (scope = 1 ∧ target = fidFn fid) ∨ (scope = 2 ∧ q = some target))
    then b.count c n else b) b

/-! ## Toward the hosts -/

/-- The range [a, a + n) meets [c, c + m): they share an element. -/
def overlaps (a n c m : Nat) : Bool :=
  decide (0 < n) && decide (0 < m) && decide (a < c + m) && decide (c < a + n)

/-- A request of function `fid` under `pasid` meets the range (R202, R204). An invalidation under one PASID touches
no translation of another, nor one of the requests without (log 152). -/
def Xlat.meets (x : Xlat) (fid : Nat) (pasid : Option Nat) (addr len : Nat) : Bool :=
  x.fid == fid && x.pasid == pasid && overlaps addr (max len 1) x.addr x.len

/-- A request of function `fid` at `addr` has a translation (R158, R204). -/
def Block.translates (b : Block) (fid : Nat) (pasid : Option Nat) (addr len : Nat) : Bool :=
  (b.link (fidLink fid)).noXlat.all fun r => !r.meets fid pasid addr len

/-! ## Clock domains -/

/-- The PLL behind source 1 of clock domain `d` (R423, R425); AON runs from XTAL_B itself. -/
def domainPll (d : Nat) : Option Nat :=
  if d < 16 then some (d / 2)
  else if d < 20 then some (d - 8)
  else if d = 22 then some 13
  else if d < 24 then some 12
  else none

/-- Source `src` of clock domain `d` has edges (R424, R427). FOSC and the crystals run. -/
def Block.sourceRuns (b : Block) (d src : Nat) : Bool :=
  src == 0 ||
  (match domainPll d with
    | some k => Tbl.get false b.plls k
    | none => true)

/-- Clock domain `d` has a clock: none in a switch to a source that has stopped (R427). -/
def Block.clockOn (b : Block) (d : Nat) : Bool :=
  let c := b.clk d
  !c.gated && !c.hung && b.sourceRuns d c.cur && !(c.switching && !b.sourceRuns d c.src)

/-- Clock domain `d` carries traffic: it runs on source 1 and is not held (R425). -/
def Block.domainRuns (b : Block) (d : Nat) : Bool :=
  (b.clk d).cur == 1 && b.clockOn d && !(b.clk d).held

/-- Host link `hl` carries traffic: it is in DL_Active, and its clock domain runs on source 1 (R212, R425). -/
def Block.hostRuns (b : Block) (hl : Nat) : Bool := (b.link hl).st == .dlActive && b.domainRuns (16 + hl)

/-! ## Requests to the hosts -/

/-- The device can issue a request for function `fid` at `addr` (R156 check 7, R404, R425). -/
def Block.canIssue (b : Block) (fid : Nat) (pasid : Option Nat) (addr len : Nat) : Bool :=
  b.live && b.hostRuns (fidLink fid) && b.translates fid pasid addr len

/-- Emit one thing outward. -/
def Block.emit (b : Block) (o : Out) : Block := { b with out := b.out ++ [o] }

/-- A posted write (R158); false where it could not be issued. -/
def Block.hostWrite (b : Block) (fid : Nat) (pasid : Option Nat) (relaxed : Bool) (addr : Nat)
    (data : Bytes) : Bool × Block :=
  if data.length = 0 then (true, b)
  else if b.canIssue fid pasid addr data.length then
    (true, b.emit (.hostWrite (fidLink fid) fid pasid relaxed addr data))
  else (false, b)

/-- Vectors of a function (R205). -/
def vectorCount (fid : Nat) : Nat := if fidFn fid = 0 then 256 else 32

/-- An MSI-X table word, by byte offset: vector control resets to 1 (masked), PCIe's own reset
value. PRESUMED (log 8). -/
def Fn.msixWord (f : Fn) (off : Nat) : Nat :=
  Tbl.get (if off % 16 = 12 then 1 else 0) f.msixTable off

/-- Vector `v` may be sent. -/
def Fn.vectorOpen (f : Fn) (v : Nat) : Bool :=
  f.msixEn && !f.fnMask && !bit (f.msixWord (16 * v + 12)) 0

/-- Send vector `v` of a function, or set its pending bit (R207). -/
def Block.msix (b : Block) (fid v : Nat) : Block :=
  if !b.fnLive fid || b.quench then b
  else if (b.fn fid).vectorOpen v && b.hostRuns (fidLink fid) && !b.asleep fid then
    b.emit (.msix (fidLink fid) fid v)
  else b.modFn fid fun f => { f with pending := Tbl.set false f.pending v true }

/-- Set a vector's pending bit only. -/
def Block.msixPend (b : Block) (fid v : Nat) : Block :=
  b.modFn fid fun f => { f with pending := Tbl.set false f.pending v true }

/-- Issue a non-posted request (R158, R202). Its outcome comes as HOST_DMA_COMPLETION. -/
def Block.dmaIssue (b : Block) (fid : Nat) (pasid : Option Nat) (kind : DmaKind) (addr len o0 o1 : Nat)
    (key : Option Nat) (purpose : DmaPurpose) : Block :=
  let r : DmaReq :=
    { tag := b.nextTag, hl := fidLink fid, fid := fid, pasid := pasid, kind := kind, addr := addr,
      len := len, operand0 := o0, operand1 := o1, key := key, purpose := purpose }
  { b with dma := b.dma ++ [r], nextTag := b.nextTag + 1 }

/-- Requests that carry out `d` on the link: none is a read beyond Max Read Request Size (R202). -/
def Block.tagsOf (b : Block) (d : DmaReq) : Nat :=
  if d.kind = .read then max 1 ((d.len + (b.link d.hl).mrrs - 1) / (b.link d.hl).mrrs) else 1

/-- The request has been issued on its link: those before it leave a tag for it, of 768 with 10-bit tags enabled and
of 256 otherwise (R202). -/
def Block.issued (b : Block) (d : DmaReq) : Bool :=
  let before := (b.dma.takeWhile fun e => !(e.tag == d.tag)).filter fun e => e.hl == d.hl
  decide ((before.map b.tagsOf).sum < if (b.link d.hl).tag10 then 768 else 256)

/-- The request is on its link, and the link carries traffic (R425). -/
def Block.onLink (b : Block) (d : DmaReq) : Bool := b.domainRuns (16 + d.hl) && b.issued d

end Sys2Proof.Machine
end

