-- ==== Sys2Proof/Machine/Flags.lean ====
section
/-! DEFINITION. Fault sources: which exist, their class and default reactions (R391 to R393), the
registers a raise sets (R394), the error pins (R397), and the computed status words (R222). -/

namespace Sys2Proof.Machine

/-! ## Blocks and sources -/

/-- Block number of cluster `c` of region `r` (R391). -/
def blkCluster (r c : Nat) : Nat := 10 * r + c
/-- Block number of port `p`. -/
def blkPort (p : Nat) : Nat := 40 + p
/-- Block number of SRAM group `g`. -/
def blkSram (g : Nat) : Nat := 60 + g
/-- Block number of the controller of host link `n`. -/
def blkHl (n : Nat) : Nat := 108 + n
/-- Blocks of the service processor, crypto and fuses, management network, clock generation,
debug, always-on and fabric time. -/
def blkSvc : Nat := 129
def blkCrypto : Nat := 130
def blkMnet : Nat := 131
def blkClkgen : Nat := 132
def blkAon : Nat := 134

/-- No unit (R392). -/
def noUnit : Nat := 0xFF

/-- A source code (R392). -/
def srcCode (blk src unit : Nat) : Nat := 2 ^ 31 + unit * 2 ^ 16 + blk * 2 ^ 8 + src

/-- Sources of block `blk` from index 8 on: class FATAL, and the default mask, I 1, T 2, B 4, C 8,
P 16 (R393). -/
def ownSource (blk src : Nat) : Option (Bool × Nat) :=
  if blk < 40 then
    match blk % 10, src with
    | 4, 8 => some (false, 0)
    | 4, 9 => some (false, 0)
    | 5, 8 => some (false, 0)
    | 5, 9 => some (false, 0)
    | 2, 8 => some (false, 1)
    | 3, 8 => some (false, 1)
    | 9, 8 => some (false, 1)
    | 9, 9 => some (false, 1)
    | 7, 8 => some (false, 1)
    | 8, 8 => some (false, 1)
    | _, _ => none
  else if blk < 56 then
    match src with
    | 8 => some (false, 17)
    | 9 => some (false, 0)
    | _ => none
  else if blk < 60 then (if src = 8 then some (true, 17) else none)
  else if blk < 108 then
    match src with
    | 8 => some (false, 0)
    | 9 => some (false, 1)
    | 10 => some (false, 17)
    | _ => none
  else if blk < 112 then
    match src with
    | 8 => some (false, 1)
    | 9 => some (false, 1)
    | _ => none
  else if blk < 116 then (if src = 8 then some (false, 5) else none)
  else if blk < 122 then
    match src with
    | 8 => some (false, 0)
    | 9 => some (true, 26)
    | _ => none
  else if blk < 129 then
    match src with
    | 8 => some (false, 17)
    | 9 => some (true, 16)
    | _ => none
  else
    match blk, src with
    | 129, 8 => some (true, 24)
    | 129, 9 => some (false, 1)
    | 130, 8 => some (true, 26)
    | 132, 8 => some (true, 17)
    | 132, 9 => some (true, 3)
    | _, _ => none

/-- Class and default mask of source `src` of block `blk`; none where it is unimplemented. -/
def sourceInfo (blk src : Nat) : Option (Bool × Nat) :=
  if 136 ≤ blk then none
  else
    match src with
    | 0 => some (false, 17)
    | 1 => some (false, 1)
    | 2 => some (false, 0)
    | 3 => some (false, 17)
    | 4 => some (false, 5)
    | 5 => some (false, 17)
    | 6 => none
    | 7 => none
    | _ => ownSource blk src

/-- The source is FATAL. -/
def srcFatal (blk src : Nat) : Bool :=
  match sourceInfo blk src with
  | some (f, _) => f
  | none => false

/-- Reset value of a reaction mask (R393); unimplemented sources hold 0. -/
def reactDefault (blk src : Nat) : Nat :=
  match sourceInfo blk src with
  | some (_, m) => m
  | none => 0

/-- The active mask of a source. -/
def Block.reactOf (b : Block) (blk src : Nat) : Nat :=
  Tbl.get (reactDefault blk src) b.react (blk * 64 + src)
/-- The shadow copy of a mask (R226). -/
def Block.reactShOf (b : Block) (blk src : Nat) : Nat :=
  Tbl.get (reactDefault blk src) b.reactSh (blk * 64 + src)
/-- Write both copies of a mask, as a dictionary write that strobes its group does (R367). -/
def Block.setReact (b : Block) (blk src v : Nat) : Block :=
  { b with react := Tbl.set (reactDefault blk src) b.react (blk * 64 + src) v,
           reactSh := Tbl.set (reactDefault blk src) b.reactSh (blk * 64 + src) v }

/-- The region of a region-cluster block is in service. -/
def Block.blkRetired (b : Block) (blk : Nat) : Bool := decide (blk < 40) && !bit b.regions (blk / 10)

/-- The mask that a source acts on: after retirement of the block's region only INT (R402). -/
def Block.maskOf (b : Block) (blk src : Nat) : Nat :=
  if b.blkRetired blk then b.reactOf blk src % 2 else b.reactOf blk src

/-- Raise source `src` of block `blk` (R394, R395): set its bit, capture it when nothing is
captured and count it in `MORE` otherwise, and call for its reactions. After retirement of the
region only INT acts (R402). The pin of a FATAL source latches (R397). -/
def Block.raiseAs (b : Block) (blk src unit detail : Nat) (forced : Bool) (fid : Option Nat) : Block :=
  match sourceInfo blk src with
  | none => b
  | some (fatal, _) =>
    let m := b.maskOf blk src
    let f := b.fltOf blk
    let f := if f.status = 0 then
        { f with source := srcCode blk src unit, more := 0, time := b.ftime,
                 detail := BitVec.ofNat 64 (if forced then 0 else detail), reaction := m,
                 forced := forced }
      else { f with more := min (f.more + 1) (2 ^ 32 - 1) }
    let f := if b.blkRetired blk && !f.status.getLsbD src then { f with late := f.late ||| (1#64 <<< src) }
      else f
    let b := b.setFlt blk { f with status := f.status ||| (1#64 <<< src) }
    let b := if fatal && bit m 4 then { b with fatalLow := true } else b
    { b with reacts := b.reacts ++ [⟨srcCode blk src unit, blk, src, m, fid, false⟩] }

/-- A real raise with no function concerned. -/
def Block.raise (b : Block) (blk src unit detail : Nat) : Block :=
  b.raiseAs blk src unit detail false none

/-- The source brings quench whatever its mask holds (R393). -/
def Reaction.critical (r : Reaction) : Bool := decide (122 ≤ r.blk) && decide (r.blk < 129) && r.src == 9
/-- The source calls for quench (R395). -/
def Reaction.quenches (r : Reaction) : Bool := r.quench || r.critical || (bit r.mask 1 && bit r.mask 3)

/-- The source calls for a chip reset, and for no quench (R395). -/
def Reaction.resets (r : Reaction) : Bool := bit r.mask 3 && !r.quenches

/-- A FLT_STATUS write of ones clears the bits; with no bit left the record clears (R384, R394). -/
def Block.clearFlt (b : Block) (blk : Nat) (v : BitVec 64) : Block :=
  let f := b.fltOf blk
  let st := f.status &&& ~~~v
  let f := { f with stalled := if st.getLsbD 4 then f.stalled else [], late := f.late &&& st }
  b.setFlt blk (if st = 0 then
      { f with status := st, source := 0, more := 0, time := 0, detail := 0, reaction := 0,
               forced := false }
    else { f with status := st })

/-- ERR_WARN_N is low (R397); what was raised after the retirement of its region does not drive it (R402). -/
def Block.warnLow (b : Block) : Bool :=
  b.flt.any fun (blk, f) =>
    (List.range 64).any fun s =>
      f.status.getLsbD s && !f.late.getLsbD s && !srcFatal blk s && bit (b.reactOf blk s) 4

/-- ERR_FATAL_N is low (R397). -/
def Block.errFatalLow (b : Block) : Bool := b.fatalLow || b.quench

/-- LINKUP_Hn_N is low: host link `n` is in DL_Active; released while it is absent and in quench (R488). -/
def Block.linkupLow (b : Block) (n : Nat) : Bool :=
  !b.quench && b.present n && (b.link n).st == .dlActive

/-- The clock domain of the service processor (R425). -/
def clkSvc : Nat := 20

/-- The service processor's own block has caused quench, and it has stopped (R404). -/
def Block.spStopped (b : Block) : Bool := b.quench && b.quenchCause / 256 % 256 == blkSvc

/-! ## Blocks that stand for shared parts -/

/-- A crossbar slice among the live regions, left open by R21: its block number. -/
def Block.someSlice (b : Block) : Nat × Block :=
  let (i, b) := b.choose (2 * b.liveRegions.length)
  (blkCluster (nth 0 b.liveRegions (i / 2)) (4 + i % 2), b)

/-- Units of a cluster (R19). -/
def clusterUnits (c : Nat) : Nat :=
  match c with
  | 4 => 1
  | 5 => 1
  | 6 => 4
  | 9 => 4
  | _ => 8

/-- The units of a region-cluster block that are in service (R18, R401). -/
def Block.liveUnits (b : Block) (blk : Nat) : List Nat :=
  (List.range (clusterUnits (blk % 10))).filter fun u => !(b.fltOf blk).retiredUnits.contains u

/-- One of the units in service of one of these blocks, as block and unit; which one is open. -/
def Block.someUnit (b : Block) (blks : List Nat) : (Nat × Nat) × Block :=
  let us := blks.flatMap fun k => (b.liveUnits k).map fun u => (k, u)
  let (i, b) := b.choose us.length
  (us.getD i (nth 0 blks 0, 0), b)

/-- A transport engine of region `home` (R19). -/
def Block.someTp (b : Block) (home : Nat) : (Nat × Nat) × Block :=
  b.someUnit [blkCluster home 2, blkCluster home 3]

/-- The region service cluster of `home` raises a failed host write (R393 source 9); the agent is
one in service, and open. -/
def Block.raiseHostDma (b : Block) (home detail : Nat) : Block :=
  let (u, b) := b.someUnit [blkCluster home 9]
  b.raise u.1 9 u.2 detail

/-- Mould engine `n` of the device: engine n mod 4 of the mould cluster of region n div 4 (R19). -/
def engineBlk (n : Nat) : Nat := blkCluster (n / 4) 6
/-- The lock identity of mould engine `n` (R19, R333). -/
def engineMaster (n : Nat) : Nat := 0xE00 + n
/-- The mould engines of region `r` that are in service. -/
def Block.liveEngines (b : Block) (r : Nat) : List Nat :=
  (b.liveUnits (blkCluster r 6)).map fun u => 4 * r + u

/-- A packet dropped as malformed at input `row` (R58): the counter of the port, if it came by
one, and the slice's source. -/
def Block.dropMalformed (b : Block) (row : Nat) (p : Pkt) : Block :=
  let b := if row < 16 then b.count (portCtr row 12) 1 else b
  let (s, b) := b.someSlice
  b.raise s 8 noUnit p.hdr0

/-- A packet dropped as misrouted (R38). -/
def Block.dropMisroute (b : Block) (row : Nat) (p : Pkt) : Block :=
  let b := if row < 16 then b.count (portCtr row 13) 1 else b
  let (s, b) := b.someSlice
  b.raise s 9 noUnit p.hdr0

/-! ## Status words -/

/-- The event types R171 lists as not maskable: 4 to 7. -/
def fixedEvents : Nat := 0xF0

/-- Reset value of `EVT_ENABLE` (R222 table): a PF has types 0 to 11, a VF the fixed ones. -/
def evtReset (fid : Nat) : Nat := if fidFn fid = 0 then 0x0FFF else fixedEvents

/-- `EVT_ENABLE` as it reads and acts, from the stored bits: fixed types read 1, undefined ones 0
(R232). -/
def evtBits (fid : Nat) (stored : Option (BitVec 16)) : Nat :=
  let v := match stored with
    | some w => w.toNat
    | none => evtReset fid
  (v ||| fixedEvents) &&& 0x0FFF

/-- A group-0 shadow of the function differs from its active copy. -/
def Block.updatePending (b : Block) (fid : Nat) : Bool :=
  let f := b.fn fid
  !(f.evtQueueSh == f.evtQueue) || !(evtBits fid f.evtEnableSh == evtBits fid f.evtEnable)

/-- `FN_STATUS` as read (R222). -/
def Block.fnStatus (b : Block) (fid : Nat) : Nat :=
  let l := b.link (fidLink fid)
  let pf := fidFn fid == 0
  b2n b.quench + b2n (pf && l.ctxPantry.on) * 2 + b2n (pf && l.regPantry.on) * 4 +
    b2n b.time.synced * 8 + b.regions % 16 * 16 + b2n (b.fn fid).cfgErr * 256 +
    b2n (b.updatePending fid) * 512

/-- `FN_ID` as read (R222). -/
def Block.fnId (b : Block) (fid : Nat) : Nat :=
  masterOf fid + b.bifCode % 4 * 2 ^ 16 + 0xB0 * 2 ^ 24

/-- `CMD_STATUS` as read (R234). -/
def Fn.cmdStatus (f : Fn) : Nat :=
  b2n f.wait.isSome + b2n f.overrun * 2 + f.status * 256 + f.lastCode * 2 ^ 16

/-- Record a bad access of a function in `FN_BAD_ACCESS` and as BAD_ACCESS of its controller
(R224, R225). -/
def Block.badAccess (b : Block) (fid off kind : Nat) (write : Bool) : Block :=
  if b.quench then b
  else
    let b := b.modFn fid fun f =>
      if f.badAccess.getLsbD 31 then f
      else { f with badAccess :=
        BitVec.ofNat 32 (off % 2 ^ 26 + kind * 2 ^ 26 + b2n write * 2 ^ 28 + 2 ^ 31) }
    b.raiseAs (blkHl (fidLink fid)) 1 noUnit off false (some fid)

end Sys2Proof.Machine
end

