-- ==== Sys2Proof/Machine/Events.lean ====
section
/-! DEFINITION. Event rings, notification places, asynchronous events, completions and trace
records (R144, R193, R249, R262 to R268, R418). -/

namespace Sys2Proof.Machine

/-- `q` is an event queue of function `fid`. -/
def Block.isEq (b : Block) (fid q : Nat) : Bool :=
  let e := b.queue q
  e.live && e.ty == 2 && e.fid == fid

/-- Write one entry at the write index of an EQ, its phase the lap's (R264). -/
def Block.eqPut (b : Block) (q : Nat) (entry : Bytes) : Block :=
  let e := b.queue q
  let (ok, b) := b.hostWrite e.fid e.pasid false (e.base + 64 * e.w) (setPhase entry e.wPhase)
  let wrap := e.w + 1 == 2 ^ e.log
  let b := b.setQueue q { e with w := if wrap then 0 else e.w + 1,
                                 wPhase := if wrap then !e.wPhase else e.wPhase,
                                 eqFree := e.eqFree - 1 }
  if ok then b else b.raiseHostDma e.home q

/-- Write a batch of entries, then send the EQ's vector once (R268). -/
def Block.eqBatch (b : Block) (q : Nat) (entries : List Bytes) : Block :=
  if entries.isEmpty then b
  else
    let b := entries.foldl (fun b x => b.eqPut q x) b
    let e := b.queue q
    if e.vectorEn then b.msix e.fid e.vector else b

/-! ## Notification places (R144) -/

/-- Places of an EQ in use: reserved, and taken by parked notifications. -/
def Queue.places (e : Queue) : Nat := e.reserved + e.parked.length
/-- Of these, the ones that lie in the overflow store. -/
def Queue.overflow (e : Queue) : Nat := e.places - e.eqFree

/-- Overflow places in use by the queues that `p` picks. -/
def Block.overflowUse (b : Block) (p : Queue → Bool) : Nat :=
  b.queues.foldl (fun n e => if p e.2 && e.2.live && e.2.ty == 2 then n + e.2.overflow else n) 0

/-- A place can be reserved on EQ `q`: on the ring, or in the overflow store within the host
link's quota and the VF's cap (R144, R213, R216). -/
def Block.placeFree (b : Block) (q : Nat) : Bool :=
  let e := b.queue q
  let all := b.overflowUse (fun x => x.hl == e.hl)
  let own := b.overflowUse (fun x => x.fid == e.fid)
  e.live && (decide (e.places < e.eqFree) ||
    b.within e.fid 13 0x24 own all 1)

/-- Something of EQ `q` waits for a place already (R193). -/
def Block.placeAwaited (b : Block) (q : Nat) : Bool := b.placeWait.any (·.1 == q)

/-- A new reservation on EQ `q` may be made: no waiter stands before it (R193). -/
def Block.placeOpen (b : Block) (q : Nat) : Bool := b.placeFree q && !b.placeAwaited q

/-- Reserve a place. -/
def Block.reserve (b : Block) (q : Nat) : Block :=
  b.modQueue q fun e => { e with reserved := e.reserved + 1 }
/-- Give a place back unused. -/
def Block.unreserve (b : Block) (q : Nat) : Block :=
  b.modQueue q fun e => { e with reserved := e.reserved - 1 }

/-- The notification of a completion takes its reserved place: onto the ring, or parked behind
those that wait (R144). -/
def Block.notify (b : Block) (eq q idx : Nat) (entry : Bytes) : Block :=
  let b := b.unreserve eq
  let e := b.queue eq
  let n := mkNotification e.wPhase q idx entry 0 b.ftime
  if e.parked.isEmpty && decide (0 < e.eqFree) then b.eqBatch eq [n]
  else
    let b := b.setQueue eq { e with parked := e.parked ++ [n] }
    b.count 836 1

/-! ## Asynchronous events -/

/-- The queue that takes a function's asynchronous events, where the active `EVT_QUEUE` names one
(R231). -/
def Block.evtQueueOf (b : Block) (fid : Nat) : Option Nat :=
  let w := (b.fn fid).evtQueue.toNat
  let q := bits w 14 0
  if bit w 15 && b.isEq fid q then some q else none

/-- Room that no notification has reserved or waits for (R267). -/
def Block.asyncRoom (b : Block) (q : Nat) : Bool :=
  let e := b.queue q
  e.parked.isEmpty && decide (e.reserved < e.eqFree)

/-- Write the EVENTS_LOST entry once there is room for it (R267). -/
def Block.flushLost (b : Block) (fid : Nat) : Block :=
  let n := (b.fn fid).lost
  match b.evtQueueOf fid with
  | none => b
  | some q =>
    if n ≠ 0 ∧ b.asyncRoom q ∧ !b.asleep fid then
      let b := b.modFn fid fun f => { f with lost := 0 }
      b.eqBatch q [mkEvent (b.queue q).wPhase 5 n b.ftime []]
    else b

/-- Count an event of function `fid` as lost (R231, R267). -/
def Block.loseEvent (b : Block) (fid : Nat) : Block :=
  (b.modFn fid fun f => { f with lost := min (f.lost + 1) (2 ^ 32 - 1) }).countEvent 16 fid none 1

/-- Event type `t` is enabled for the function (R266). -/
def Block.evtOn (b : Block) (fid t : Nat) : Bool := bit (evtBits fid (b.fn fid).evtEnable) t

/-- Raise an asynchronous event of type `t` to function `fid` (R266, R267); `body` holds bytes 16
onward. Nothing is written in quench, before start-up is through, or for a function in reset. -/
def Block.event (b : Block) (fid t : Nat) (body : Bytes) : Block :=
  if !b.live || !b.fnLive fid || !b.evtOn fid t then b
  else
    match b.evtQueueOf fid with
    | none => b.loseEvent fid
    | some q =>
      if (b.fn fid).lost = 0 ∧ b.asyncRoom q ∧ !b.asleep fid then
        b.eqBatch q [mkEvent (b.queue q).wPhase t 0 b.ftime body]
      else b.loseEvent fid

/-- The functions that exist on present host links, PF first. -/
def Block.functions (b : Block) : List Nat :=
  ((List.range 4).filter b.present).flatMap fun hl =>
    let l := b.link hl
    fidOf hl 0 :: (if l.vfEnable then (List.range l.numVfs).map (fun k => fidOf hl (k + 1)) else [])

/-- Raise an event to every function that has its type enabled (R171). -/
def Block.eventAll (b : Block) (t : Nat) (body : Bytes) : Block :=
  b.functions.foldl (fun b fid => b.event fid t body) b

/-- DEVICE_FAULT to the PF of each present host link (R395). -/
def Block.deviceFault (b : Block) (code : Nat) : Block :=
  ((List.range 4).filter b.present).foldl (fun b hl => b.event (fidOf hl 0) 6 (toLe 4 code)) b

/-! ## Trace records (R418) -/

/-- The next `RSEQ`, skipping 0 (R416). -/
def nextRseq (n : Nat) : Nat := if n + 1 = 2 ^ 32 then 1 else n + 1

/-- Write a 64-byte record into the trace ring (R417, R418): one that finds no ring or meets a poisoned word
of the staging is dropped, and a write that cannot be issued stops the trace. Also whether it was written. -/
def Block.traceWrite (b : Block) (fid home : Nat) (mk : Nat → Bytes) : Bool × Block :=
  let t := (b.fn fid).trace
  let b := b.modFn fid fun f => { f with trace := { t with rseq := nextRseq t.rseq } }
  if !t.ringSet then (false, b.count 843 1)
  else if 0 < b.stagingBad then
    (false, ({ b with stagingBad := b.stagingBad - 1 } : Block).count 843 1)
  else
    let (ok, b) := b.hostWrite fid none false (t.base + 64 * (t.slot % 2 ^ t.log)) (mk t.rseq)
    if ok then
      (true, (b.modFn fid fun f => { f with trace := { f.trace with slot := t.slot + 1 } }).count 842 1)
    else
      (false, ((b.modFn fid fun f => { f with trace := { f.trace with on := false } }).count 843 1
        ).raiseHostDma home fid)

/-- The descriptor record (R418). -/
def traceRecord (rseq q idx : Nat) (desc entry : Bytes) (status base : Nat) (t : TraceTimes)
    (synced : Bool) (tDone : Nat) : Bytes :=
  let acked := match t.acked with
    | some a => a
    | none => tDone
  let len := if entOpcode desc = 5 ∨ entOpcode desc = 6 then fld desc 52 4 else fld desc 28 4
  toLe 4 rseq ++ toLe 2 q ++ toLe 2 idx ++ toLe 1 (entOpcode desc) ++ toLe 1 status ++
    toLe 1 (b2n (entMcast desc) + b2n (decide (0 < t.tries)) * 2 + b2n (!synced) * 4) ++ zeros 1 ++
    toLe 4 (bits (fld desc 4 4) 25 0) ++ toLe 8 (base + 64 * idx) ++ toLe 8 t.posted ++
    toLe 8 t.issued ++ toLe 8 acked ++ slice entry 56 8 ++ toLe 4 len ++
    toLe 2 (min t.tries 0xFFFF) ++ toLe 1 t.path ++ zeros 1

/-! ## Completions -/

/-- Write the completion of entry `idx` of queue `q` over its descriptor, its notification where
the queue has `NOTIFY`, and its trace record (R249, R262, R265, R418). The notification's place
is one reserved before. Nothing is written for a function in reset or in quench (R270, R172). -/
def Block.complete (b : Block) (q idx : Nat) (desc : Bytes) (status : Nat) (result : Bytes)
    (trace : Option TraceTimes) : Block :=
  let qu := b.queue q
  let b := b.setQueue q { qu with outstanding := qu.outstanding.filter (fun i => !(i == idx)) }
  if !qu.live || !b.live || !b.fnLive qu.fid then b
  else
    let entry := mkCompletion desc status result b.ftime
    let (ok, b) := b.hostWrite qu.fid qu.pasid false (qu.base + 64 * idx) entry
    let b := if ok then b else b.raiseHostDma qu.home q
    let b := b.countEvent 1 qu.fid (some q) 1
    let b := if status = 0 then b else b.countEvent 2 qu.fid (some q) 1
    let b := if qu.notify then b.notify qu.eq q idx entry else b
    match trace with
    | none => b
    | some t =>
      let now := b.ftime
      if (b.fn qu.fid).trace.on then
        (b.traceWrite qu.fid qu.home fun r =>
          traceRecord r q idx desc entry status qu.base t b.time.synced now).2
      else b

end Sys2Proof.Machine
end

