-- ==== Sys2Proof/Machine/Route.lean ====
section
/-! DEFINITION. The routing logic: output queues and heat (R99), choice of a path (R102, R103),
the forwarding step (R38), detours (R106 to R110), trees (R114) and the reports of dropped packets
(R45, R111). -/

namespace Sys2Proof.Machine

/-- Key of VC `v` of port `p`. -/
def pv (p v : Nat) : Nat := 16 * p + v

/-- Grains of VC `v` held for the link of port `p` and not yet in a flit: on the output queue, and what
is left of the packet being packed (R99). -/
def Block.queued (b : Block) (p v : Nat) : Nat :=
  (queueOf b.outQ (pv p v)).foldl (fun n x => n + x.pkt.size) 0 +
    (match (b.port p).opened with
      | some (bs, _) => if (b.port p).lastVc = v then bs.length / 16 else 0
      | none => 0)

/-- The fill of an output queue of a general VC; privileged queues have none (R99). -/
def Block.fill (b : Block) (p v : Nat) : Nat :=
  if 8 ≤ v then 0 else min 127 (128 * b.queued p v / b.fillScale)

/-- A port takes packets: ACTIVE, or RETRAIN, where they wait (R108). -/
def portTakes (st : PortSt) : Bool := st == .active || st == .retrain

/-- The port takes packets. -/
def Block.portUp (b : Block) (p : Nat) : Bool := portTakes (b.port p).st

/-- Bring the injection throttle of an output queue to its fill (R104); a rise counts an episode. -/
def Block.throttle (b : Block) (p v : Nat) : Block :=
  if 8 ≤ v then b
  else
    let on := Tbl.get false b.throttled (pv p v)
    let f := b.fill p v
    if !on && decide (b.obj 0x4010 3 ≤ f) then
      ({ b with throttled := Tbl.set false b.throttled (pv p v) true }).count 516 1
    else if on && decide (f ≤ b.obj 0x4010 4) then
      { b with throttled := Tbl.set false b.throttled (pv p v) false }
    else b

/-- The output queue is throttled for new requests. -/
def Block.isThrottled (b : Block) (p v : Nat) : Bool := Tbl.get false b.throttled (pv p v)

/-- A packet joins an output queue, its heat stamped with the fill it meets (R38, R99). -/
def Block.joinOut (b : Block) (p v : Nat) (src : Src) (pkt : Pkt) : Block :=
  let pkt := if pkt.priv then pkt else pkt.setPtrHeat pkt.ptr (max pkt.heat (b.fill p v))
  let k := pv p v
  ({ b with outQ := Tbl.set [] b.outQ k (queueOf b.outQ k ++ [QPkt.mk pkt src]) }).throttle p v

/-- A packet is delivered at this node, with the sprue entry read for it, where it is a tree packet. -/
def Block.deliver (b : Block) (row vc : Nat) (pkt : Pkt) (entry : Nat) : Block :=
  { b with delivery := b.delivery ++ [{ pkt := pkt, row := row, vc := vc, entry := entry }] }

/-- A packet that the router has made goes to the injection point, to leave on VC `v` of each port of
`ports` in its turn (R105). -/
def Block.make (b : Block) (v : Nat) (pkt : Pkt) (ports : List Nat) : Block :=
  if ports.isEmpty then b
  else { b with madeQ := Tbl.set [] b.madeQ v (queueOf b.madeQ v ++ [(pkt, ports)]) }

/-- A packet waits at the local injection point, on the VC it counts as arriving on (R38). -/
def Block.inject (b : Block) (pkt : Pkt) : Block :=
  let v := pkt.vcOn 0
  { b with injQ := Tbl.set [] b.injQ v (queueOf b.injQ v ++ [pkt]) }

/-! ## Choice of a path -/

/-- The path-book entry of a node (R95). -/
def Block.bookOf (b : Block) (node : Nat) : Bytes := Tbl.get [] b.paths node

/-- What the choice of a path came to (R102, R112). -/
inductive PathChoice where
  | path (j : Nat) (p : Path)
  | wait
  /-- No path valid, or every valid path held off. -/
  | unroutable
  deriving DecidableEq, Repr

/-- Path `j` of an entry is a candidate for class `cls` (R102). -/
def Block.candidate (b : Block) (cls : Nat) (throttled : Bool) (p : Path) : Bool :=
  let h := (nth 0 p.hops 0).toNat
  b.portUp (hopPort h) &&
  !(throttled && b.isThrottled (hopPort h) (2 * hopLayer h + cls))

/-- The candidates in tie order, with their scores; the lowest score, first in order (R102). -/
def lowest : List (Nat × Nat) → Option Nat
  | [] => none
  | (j, s) :: t =>
    match lowest t with
    | none => some j
    | some k =>
      match lookup k t with
      | some s' => if s ≤ s' then some j else some k
      | none => some j

/-- Choose a path to `node` (R102): `heat` and `held` by path index, `from_` the path a tie is
counted from, `throttled` whether a throttled queue removes a path (R103). -/
def Block.choosePath (b : Block) (node cls : Nat) (throttled : Bool) (heat : Nat → Nat)
    (held : Nat → Bool) (last : Nat) : PathChoice :=
  let entry := b.bookOf node
  let order := (List.range 4).map fun i => (last + 1 + i) % 4
  let valid := order.filter fun j => (pathOf entry j).valid
  let unheld := valid.filter fun j => !held j
  if unheld.isEmpty then .unroutable
  else
    let cand := unheld.filter fun j => b.candidate cls throttled (pathOf entry j)
    match lowest (cand.map fun j => (j, heat j + (pathOf entry j).bias)) with
    | some j => .path j (pathOf entry j)
    | none => .wait

/-- The packet with the route of path `p` at injection (R37). The source acts under R38 when the
packet leaves the injection point, which advances `PTR` and stamps `HEAT`. -/
def Pkt.withRoute (pkt : Pkt) (p : Path) : Pkt :=
  { pkt with hops := p.route, cw := mkCw 0 p.last 0 0 0 }

/-- The packet with the route of a tree (R41). -/
def Pkt.onTree (pkt : Pkt) (mode tree : Nat) : Pkt :=
  { pkt with hops := noRoute, cw := mkCw 0 0 0 mode tree }

/-- A path is held off at `now` (R112). -/
def Ctx.held (c : Ctx) (now j : Nat) : Bool :=
  match nth none c.holdUntil j with
  | some t => decide (now < t)
  | none => false

/-- Send a response on context `c` (R103): on a chosen path, or dropped and counted. A node's
packets to itself need no path (R39). -/
def Block.sendRsp (b : Block) (c : Nat) (pkt : Pkt) : Block :=
  let cx := b.ctx c
  let node := faNode pkt.dstFa
  if node = b.nodeId then b.inject pkt
  else
    match b.choosePath node 1 false (nth 0 cx.heat) (cx.held b.now) cx.lastPath with
    | .path j p => (b.setCtx c { cx with lastPath := j }).inject (pkt.withRoute p)
    | _ => b.count 538 1

/-- Send a report that belongs to no connection (R103). -/
def Block.sendReport (b : Block) (pkt : Pkt) : Block :=
  let node := faNode pkt.dstFa
  if node = b.nodeId then b.inject pkt
  else
    match b.choosePath node 1 false (fun _ => 0) (fun _ => false) 3 with
    | .path _ p => b.inject (pkt.withRoute p)
    | _ => b.count 538 1

/-! ## Dropped packets -/

/-- The UNROUTABLE_REPORT on a dropped packet (R44, R45). `path` is the path the packet recorded; the
'reporting port' is the failed output port `failed` (log 138). -/
def unroutableReport (node failed path : Nat) (p : Pkt) : Pkt :=
  ctlPkt 4 1 false 0 p.partition p.srcFa (mkFa node 0x3FFF) (p.at_ 44 4)
    (toLe 1 path ++ toLe 1 p.ptr ++ toLe 1 p.kind ++ toLe 1 failed ++ toLe 4 p.dstFa ++
      toLe 4 p.ctxOf)

/-- Drop a unicast general packet whose next port `failed` has no usable detour (R107, R111): REQ
is reported, RSP is only counted. A control packet records no path, so its report's `PATH` is a
free value (log 9). -/
def Block.dropUnroutable (b : Block) (failed : Nat) (p : Pkt) : Block :=
  let b := b.count 512 1
  if p.cls = 0 then
    let (path, b) := if p.format = 0 then b.choose 4 else (p.path, b)
    b.sendReport (unroutableReport b.nodeId failed path p)
  else b

/-! ## Detours -/

/-- The segment for arrival row `row` and failed port `q` (R106). -/
def Block.segment (b : Block) (row q : Nat) : Bytes := Tbl.get [] b.segments (16 * row + q)

/-- The packet with the segment spliced in at `PTR` (R40): every hop from `PTR` on takes layer 3,
the segment's hops `SPLICED`. -/
def Pkt.splice (p : Pkt) (seg : Bytes) : Pkt :=
  let k := segLen seg
  let hops := (List.range 32).map fun i =>
    if i < p.ptr then nth 0 p.hops i
    else if i < p.ptr + k then
      (BitVec.ofNat 8 (fld seg (i - p.ptr) 1) &&& 0xF0#8) ||| 0x0D#8
    else if i < p.last + k then (nth 0 p.hops (i + 1 - k) &&& 0xF0#8) ||| 0x0C#8
    else 0
  { p with hops := hops, cw := mkCw p.ptr (p.last + k - 1) p.heat p.mode p.tree }

/-- Take hop `PTR` of a unicast packet: advance `PTR` and join the output queue (R38). -/
def Block.takeHop (b : Block) (src : Src) (p : Pkt) : Block :=
  let h := p.hop p.ptr
  b.joinOut (hopPort h) (p.vcOn (hopLayer h)) src (p.setPtrHeat (p.ptr + 1) p.heat)

/-- The segment that packet `p`, from input `row`, may be spliced with at the failed port `q` (R107). -/
def Block.detourSeg (b : Block) (row q : Nat) (p : Pkt) : Option Bytes :=
  let seg := b.segment row q
  if p.hops.any (fun h => hopSpliced h.toNat) || segLen seg == 0 ||
      decide (31 < p.last + segLen seg - 1) then none else some seg

/-- A general unicast packet is ready to take hop `PTR` on the failed port `q` (R107). -/
def Block.detour (b : Block) (src : Src) (q : Nat) (p : Pkt) : Block :=
  match b.detourSeg src.row q p with
  | none => b.dropUnroutable q p
  | some seg =>
    let p' := p.splice seg
    let b := b.count (portCtr q 7) 1
    let b := if !(b.port q).hasFailed || (b.port q).detourTold then b
      else (b.modPort q fun x => { x with detourTold := true }).eventAll 3 (toLe 1 q)
    let q' := hopPort (p'.hop p'.ptr)
    if b.portUp q' then b.takeHop src p' else b.dropUnroutable q' p'

/-- Drop a privileged packet that cannot go on (R117): counted with the tree drops when it is a tree packet, with the
unroutable drops otherwise; no rule names the counter (log 178). Its pour breaks with cause LINK, which `settle` sees to. -/
def Block.dropPriv (b : Block) (p : Pkt) : Block :=
  { b.count (if p.mode = 0 then 512 else 514) 1 with lostPriv := b.lostPriv ++ [p] }

/-- The privileged packet may use the link of port `q` (R117). -/
def Block.privOk (b : Block) (q : Nat) (p : Pkt) : Bool :=
  b.portUp q && decide (p.pvc < (b.port q).pvcSettled)

/-! ## Forwarding -/

/-- Where a unicast packet goes next (R38). -/
inductive Hop where
  | deliver | misroute | malformed
  | out (port vc : Nat)
  deriving DecidableEq, Repr

/-- The decision of R38 for a unicast packet on VC `vc` of input `row`; a packet for this node at
the injection point is delivered whatever its route (R39). -/
def Block.hopOf (b : Block) (row vc : Nat) (p : Pkt) : Hop :=
  let here := faNode p.dstFa == b.nodeId
  if row = 16 ∧ here then .deliver
  else if p.ptr = p.last + 1 then (if here then .deliver else .misroute)
  else if p.last + 1 < p.ptr then .malformed
  else
    let h := p.hop p.ptr
    if !p.priv && decide (hopLayer h < vc / 2) then .malformed
    else .out (hopPort h) (p.vcOn (hopLayer h))

/-- The privileged VC count a packet on input `row` is held to (R58): what the port settled, or
for injected packets what the device offers at most. -/
def Block.pvcLimit (b : Block) (row : Nat) : Nat :=
  if row < 16 then (b.port row).pvcSettled else 8

/-- Copy a multicast packet to one port of its tree (R114, R117). A copy that would go back where it
came from is not made; only one on a general VC is counted as a tree fault (DEDUCED, log 52). -/
def Block.treeCopy (b : Block) (src : Src) (vc w : Nat) (p : Pkt) (q : Nat) : Block :=
  if q = src.row then (if p.priv then b else b.count 513 1)
  else if p.priv then
    if b.privOk q p then b.joinOut q (p.vcOn 0) src p else b.dropPriv p
  else if sprueLayer w < vc / 2 then b.dropMalformed src.row p
  else if !b.portUp q then b.count 514 1
  else b.joinOut q (2 * sprueLayer w + p.cls) src p

/-- The queues that the copies of a multicast packet join, as port and VC (R114, R117). -/
def Block.treeOuts (b : Block) (row vc w : Nat) (p : Pkt) : List (Nat × Nat) :=
  ((bitList 16 (sprueOut w)).filter fun q =>
    q != row && (if p.priv then b.privOk q p else decide (vc / 2 ≤ sprueLayer w) && b.portUp q)).map
    fun q => (q, p.vcOn (sprueLayer w))

/-- Handle a multicast packet at this router by its sprue entry `w` (R26, R114): a copy to every port of
`OUT_MASK`, then local delivery where `LOCAL` is set. Of the copies only those whose queues are in `go` join
them now; the others wait for their turns (R105). -/
def Block.treeForward (b : Block) (src : Src) (vc w : Nat) (p : Pkt) (go : List (Nat × Nat)) : Block :=
  if !sprueValid w then b.count 513 1
  else
    let later := (b.treeOuts src.row vc w p).filter fun o => !go.contains o
    let b := ((bitList 16 (sprueOut w)).filter fun q => !later.any fun o => o.1 == q).foldl
      (fun b q => b.treeCopy src vc w p q) b
    let b := if later.isEmpty then b
      else { b with copying := Tbl.set none b.copying (pv src.row vc) (some ⟨p, src, w, later⟩) }
    if sprueLocal w then b.deliver src.row vc p w else b

/-- Treat a packet queued for failed port `q` (R107, R109): `PTR` goes back by one, then a detour;
tree copies and privileged packets are dropped and counted (R114, R117). -/
def Block.takeBack (b : Block) (q : Nat) (x : QPkt) : Block :=
  let p := x.pkt
  if p.priv then b.dropPriv p
  else if p.mode = 0 then b.detour x.src q (p.setPtrHeat (p.ptr - 1) p.heat)
  else b.count 514 1

end Sys2Proof.Machine
end

