-- ==== Sys2Proof/Machine/LinkOps.lean ====
section
/-! DEFINITION. The link layer's shared operations: credits and the pool (R73 to R76, R512), the
replay window (R70 to R72), sending of flits, the states of a port (R83 to R89). -/

namespace Sys2Proof.Machine

/-- Clock domain of fabric time (R425). -/
def clkTime : Nat := 22

/-! ## Credits -/

/-- The port carries data: ACTIVE, or RETRAIN. -/
def Port.carries (x : Port) : Bool := portTakes x.st

/-- The pool grant of VC `v`. -/
def Port.granted (x : Port) (v : Nat) : Nat := Tbl.get 0 x.grant v

/-- `ALLOW` of VC `v` (R75, R512): nothing while the port carries no data (log 10). -/
def Port.allow (x : Port) (v : Nat) : Nat :=
  if !x.carries then 0
  else if v < 8 then 2048 + x.granted v
  else if v - 8 < x.pvcSettled then 2048 / x.pvcSettled * 16
  else 0

/-- `CLIM` of VC `v` (R73). -/
def Port.clim (x : Port) (v : Nat) : Nat := (Tbl.get 0 x.freed v + x.allow v) % 65536

/-- Grains of VC `v` held in the input buffer of port `p` since the present entry to ACTIVE: packets
received whole, those that wait on an output queue or have copies to make, and the one being received. -/
def Block.held (b : Block) (p v : Nat) : Nat :=
  let x := b.port p
  let whole := (queueOf b.rxQ (pv p v)).drop (Tbl.get 0 x.carry v)
  let place (src : Src) (k : Pkt) : Option (Nat × Nat) :=
    if src.row = p then src.place.bind fun w => if w.1 = v then some (w.2, k.size) else none else none
  let waits := ((b.outQ.flatMap fun e => e.2.filterMap fun k => place k.src k.pkt) ++
    b.copying.filterMap fun e => e.2.bind fun c => place c.src c.pkt).eraseDups
  whole.foldl (fun n k => n + k.size) 0 + waits.foldl (fun n w => n + w.2) 0 +
    (match x.partialRx with
      | some (u, bs) => if u = v then bs.length / 16 else 0
      | none => 0)

/-- The cap of R54 on a general VC's pool grant, in grains. -/
def Block.poolCap (b : Block) (p : Nat) : Nat := b.portObj p 11 / 16

/-- Pool grains of a port not granted (R512). -/
def Port.poolLeft (x : Port) : Nat :=
  49152 - (List.range 8).foldl (fun n v => n + x.granted v) 0

/-- The `CLIM` of VC `v` was `was`: where it has changed, the VC goes behind those that changed before it
(R76); one that is back at what was last advertised has nothing to report. -/
def Port.markStale (x : Port) (v was : Nat) : Port :=
  if x.clim v = Tbl.get 0 x.told v then { x with stale := x.stale.filter fun u => !(u == v) }
  else if x.clim v = was ∧ v ∈ x.stale then x
  else { x with stale := x.stale.filter (fun u => !(u == v)) ++ [v] }

/-- Raise the pool grant of a VC by one step, or by what is left (R512). `POOL_CAP` is read at each raise,
and a grant above a cap that has since been lowered stands (log 126). -/
def Block.poolRaise (b : Block) (p v was : Nat) : Block :=
  let x := b.port p
  let room := b.poolCap p - x.granted v
  let n := min 256 (min room x.poolLeft)
  let x := if n = 0 then
      (if room ≠ 0 ∧ v ∉ x.poolWait then { x with poolWait := x.poolWait ++ [v] } else x)
    else { x with grant := Tbl.set 0 x.grant v (x.granted v + n),
                  poolWait := x.poolWait.filter (fun u => !(u == v)) }
  b.setPort p (x.markStale v was)

/-- The VC holds half of its `ALLOW` or more (R512). -/
def Block.poolWants (b : Block) (p v : Nat) : Bool :=
  decide ((b.port p).allow v ≤ 2 * b.held p v)

/-- Serve the VCs that wait for pool space, in the order of their requests (R512). -/
def Block.poolServe (b : Block) (p : Nat) : Block :=
  (b.port p).poolWait.foldl (fun b v =>
    if b.poolWants p v then b.poolRaise p v ((b.port p).clim v)
    else b.modPort p fun x => { x with poolWait := x.poolWait.filter (fun u => !(u == v)) }) b

/-- Bring the pool grant of VC `v` to what it holds (R512), and note its `CLIM`, which was `was` (R76). -/
def Block.creditCheck (b : Block) (p v was : Nat) : Block :=
  let x := b.port p
  if 8 ≤ v ∨ !x.carries then b.setPort p (x.markStale v was)
  else if b.poolWants p v then b.poolRaise p v was
  else
    let n := min 256 (x.granted v)
    let clim := Tbl.get 0 x.freed v + x.allow v - n
    let falls := decide (32768 ≤ (clim + 65536 - Tbl.get 0 x.told v) % 65536)
    if 4 * b.held p v < x.allow v ∧ n ≠ 0 ∧ !falls then
      let y : Port := { x with grant := Tbl.set 0 x.grant v (x.granted v - n) }
      (b.setPort p (y.markStale v was)).poolServe p
    else b.setPort p (x.markStale v was)

/-- A packet of `n` grains has left the input buffer of VC `v` of port `p` (R73, R75). -/
def Block.freeGrains (b : Block) (p v n : Nat) : Block :=
  let x := b.port p
  (b.setPort p { x with freed := Tbl.set 0 x.freed v ((Tbl.get 0 x.freed v + n) % 65536) }
    ).creditCheck p v (x.clim v)

/-- Where a packet taken off VC `v` of input `row` comes from: a counted place of its own, or none
for the injection point and for grains that came before the present entry to ACTIVE, which count no
credit (R89). -/
def Block.takePlace (b : Block) (row v : Nat) : Src × Block :=
  if row = 16 then (⟨16, none⟩, b)
  else
    let x := b.port row
    let k := Tbl.get 0 x.carry v
    if k ≠ 0 then (⟨row, none⟩, b.setPort row { x with carry := Tbl.set 0 x.carry v (k - 1) })
    else (⟨row, some (v, b.nextPlace)⟩, { b with nextPlace := b.nextPlace + 1 })

/-- Free the place a packet of `n` grains came from, once no output queue holds a copy and none is to be made
(R75). -/
def Block.leave (b : Block) (src : Src) (n : Nat) : Block :=
  match src.place with
  | none => b
  | some (v, _) =>
    if (b.outQ.any fun e => e.2.any fun k => k.src == src) ||
        (b.copying.any fun e => e.2.any fun c => c.src == src) then b
    else b.freeGrains src.row v n

/-! ## Sending -/

/-- A flit type that counts as a heartbeat (R65). -/
def countsAsHeartbeat (ftype : Nat) : Bool := decide (1 ≤ ftype) && decide (ftype ≤ 5)

/-- Send a flit of the link engine on port `p`: `ACK`, `RR` and the two credit reports are the
port's own (R64, R69, R76). The VC whose `CLIM` changed longest ago and has not been reported since goes in
`CVC_A`; with none, `CVC_A` repeats `CVC_B` (log 127). -/
def Block.sendFlit (b : Block) (p : Nat) (f : Flit) : Block :=
  let x := b.port p
  let va := nth x.cvcB x.stale 0
  let vb := x.cvcB
  let f : Flit :=
    { f with rr := x.discarding, ack := x.expect - 1, cvcA := va, climA := x.clim va, cvcB := vb,
             climB := x.clim vb }
  let x : Port :=
    { x with told := Tbl.set 0 (Tbl.set 0 x.told va (x.clim va)) vb (x.clim vb),
             stale := x.stale.filter (fun v => !(v == va || v == vb)), cvcB := (vb + 1) % 16,
             sentHbAt := if countsAsHeartbeat f.ftype then b.now else x.sentHbAt }
  (b.setPort p x).emit (.flit p f.encode)

/-- A flit of a type other than DATA (R64, R65). -/
def Block.sendCtl (b : Block) (p ftype : Nat) (payload : Bytes) : Block :=
  b.sendFlit p { ftype := ftype, seq := (b.port p).nextSeq, payload := payload }

/-- Send a DATA flit of the replay window (R64). -/
def Block.sendData (b : Block) (p : Nat) (t : TxFlit) : Block :=
  b.sendFlit p
    { ftype := 1, vc := t.vc, start := t.start, used := t.used, seq := t.seq, payload := t.payload }

/-! ## The replay window -/

/-- Depth of the replay window in flits (R71): the lane-die buffer, and 4 flits for each KiB of the
port's ladle. -/
def Block.replayDepth (b : Block) (p : Nat) : Nat :=
  let lost := (b.ladleLost.map (·.2)).sum
  384 + (b.carveOf 9 + lost / 4) / 16 * 4 - Tbl.get 0 b.ladleLost p

/-- Flits of the window not acknowledged yet (R70). -/
def Port.unacked (x : Port) : List TxFlit :=
  x.window.filter fun t => decide (ahead16 t.seq x.ackGot ≤ 32767) && !(t.seq == x.ackGot)

/-- Flit `t` is held because a packet with grains in it is not fully acknowledged (R72). -/
def Port.holds (x : Port) (t : TxFlit) : Bool :=
  let live (first : BitVec 16) : Bool := decide (ahead16 t.seq first ≤ 32767)
  x.windowPkts.any (fun k => live k.first) ||
    (match x.opened with
      | some (_, k) => live k.first
      | none => false)

/-- Take an acknowledgement up to `ack` (R70, R72): nothing where it names no unacknowledged flit. -/
def Block.takeAck (b : Block) (p : Nat) (ack : BitVec 16) : Block :=
  let x := b.port p
  let n := ahead16 ack x.ackGot
  if n = 0 ∨ ahead16 (x.nextSeq - 1) x.ackGot < n then b
  else
    let x : Port :=
      { x with ackGot := ack, ackAt := b.now, replayed := false,
               windowPkts := x.windowPkts.filter fun k =>
                 decide (ahead16 k.last ack ≤ 32767) && !(k.last == ack) }
    let un := x.unacked
    b.setPort p { x with window := x.window.filter fun t => un.contains t || x.holds t }

/-- Resend every unacknowledged flit, in order (R70). -/
def Block.replay (b : Block) (p : Nat) : Block :=
  let un := (b.port p).unacked
  let b := un.foldl (fun b t => b.sendData p t) b
  let b := b.modPort p fun x =>
    { x with replayed := true,
             window := x.window.map fun t => if un.contains t then { t with sentAt := b.now } else t }
  b.count (portCtr p 4) 1

/-! ## Packing packets into flits -/

/-- VC `v` of port `p` has a packet ready and credit for it (R74, R105). -/
def Block.vcReady (b : Block) (p v : Nat) : Bool :=
  match queueOf b.outQ (pv p v) with
  | [] => false
  | k :: _ =>
    let x := b.port p
    decide (k.pkt.size ≤ (Tbl.get 0 x.climGot v + 65536 - Tbl.get 0 x.sent v) % 65536)

/-- The VC that the round robin of R105 serves next. -/
def Block.nextVc (b : Block) (p : Nat) : Option Nat :=
  ((List.range 16).map fun i => ((b.port p).lastVc + 1 + i) % 16).find? (b.vcReady p)

/-- Take the packet at the head of VC `v` to be sent from flit `seq` on (R74). -/
def Block.openPacket (b : Block) (p v : Nat) (seq : BitVec 16) : Block :=
  match queueOf b.outQ (pv p v) with
  | [] => b
  | k :: t =>
    let b := { b with outQ := Tbl.set [] b.outQ (pv p v) t }
    let b := b.modPort p fun x =>
      { x with opened := some (k.pkt.encode, ⟨seq, seq, k.pkt, k.src.row⟩), lastVc := v,
               sent := Tbl.set 0 x.sent v ((Tbl.get 0 x.sent v + k.pkt.size) % 65536) }
    (b.throttle p v).leave k.src k.pkt.size

/-- A flit being packed (R67). -/
structure Packing where
  b : Block
  used : Nat := 0
  start : Nat := 15
  vc : Nat := 0
  payload : Bytes := []
  deriving DecidableEq, Repr

/-- One move of packing flit `seq`: put in grains of the open packet, or open the next packet when
it rides the flit's VC (R67). `fresh` says whether new packets may start. -/
def Packing.move (g : Packing) (p : Nat) (seq : BitVec 16) (fresh : Bool) : Packing :=
  if 15 ≤ g.used then g
  else
    match (g.b.port p).opened with
    | some (bs, k) =>
      let n := min (15 - g.used) (bs.length / 16)
      let rest := bs.drop (16 * n)
      let b := g.b.modPort p fun x =>
        if rest.isEmpty then
          { x with opened := none, windowPkts := x.windowPkts ++ [{ k with last := seq }] }
        else { x with opened := some (rest, k) }
      { g with b := b, used := g.used + n, payload := g.payload ++ bs.take (16 * n) }
    | none =>
      match g.b.nextVc p with
      | none => g
      | some v =>
        if fresh && (g.start == 15 || g.vc == v) then
          { g with b := g.b.openPacket p v seq, vc := v,
                   start := if g.start = 15 then g.used else g.start }
        else g

/-- Pack and send one new DATA flit (R67, R68, R74); nothing where nothing is ready or the replay
window is full (R71). -/
def Block.packFlit (b : Block) (p : Nat) (fresh : Bool) : Block :=
  let x := b.port p
  if b.replayDepth p ≤ x.unacked.length then b
  else
    let seq := x.nextSeq
    let g := Nat.repeat (fun g : Packing => g.move p seq fresh) 31 { b := b }
    if g.used = 0 then b
    else
      let t : TxFlit :=
        { seq := seq, vc := g.vc, start := g.start, used := g.used, payload := g.payload,
          sentAt := b.now }
      let idle := x.unacked.isEmpty
      let b := (g.b.throttle p x.lastVc).throttle p (g.b.port p).lastVc
      let b := b.modPort p fun x =>
        { x with nextSeq := seq + 1, window := x.window ++ [t],
                 ackAt := if idle then b.now else x.ackAt,
                 winTx := x.winTx + 16 * g.used }
      let b := (b.count (portCtr p 0) (16 * g.used)).count (portCtr p 2) 1
      b.sendData p t

/-- Finish the packet being sent (R84): at most 18 flits hold the largest packet. -/
def Block.finishPacket (b : Block) (p : Nat) : Block :=
  Nat.repeat (fun b : Block =>
    if (b.port p).opened.isSome then b.packFlit p false else b) 18 b

/-! ## The states of a port -/

/-- The settings a port loads as it enters TRAINING (R94). -/
def Block.portCfg (b : Block) (p : Nat) : PortCfg :=
  { modes := b.portObj p 2, pvcCount := b.portObj p 3, seamlessOk := b.portObj p 4 == 1,
    hbPeriod := b.portObj p 5, expectNeighbour := b.portObj p 10, medium := b.portObj p 12,
    machineId := b.obj 0x3001 0 }

/-- Enter TRAINING (R83). -/
def Block.enterTraining (b : Block) (p : Nat) : Block :=
  b.modPort p fun x =>
    { x with st := .training, loaded := b.portCfg p, since := b.now, peer := none, myRefuse := 0,
             lastCapx := none, pauseTarget := none, pauseOwed := none, refuse4At := none }

/-- Body of PORT_DOWN, PORT_UP and PORT_DEGRADED (R266). -/
def Block.portEventBody (b : Block) (p : Nat) : Bytes :=
  let x := b.port p
  toLe 1 p ++ toLe 1 x.mode ++ zeros 2 ++ toLe 4 x.neighbour

/-- Rank of a mode in the order of R80; larger is worse. -/
def modeRank (m : Nat) : Nat :=
  match rowOf m with
  | some r => rowRank r
  | none => 9

/-- The mode is below the best enabled mode (R83). -/
def Port.degraded (x : Port) : Bool :=
  (bitList 9 x.loaded.modes).any fun r => decide (rowRank r < modeRank x.mode)

/-- Raise PORT_DEGRADED when the mode is below the best enabled one (R83). -/
def Block.tellDegraded (b : Block) (p : Nat) : Block :=
  if (b.port p).degraded then b.eventAll 2 (b.portEventBody p) else b

/-- Enter ACTIVE from EXCHANGE (R68, R75, R83, R89). `CVC_B`'s turn begins at VC 0, and VCs whose `CLIM` has
changed are reported in ascending order (R76; log 127). -/
def Block.activate (b : Block) (p : Nat) : Block :=
  let uncount (k : QPkt) : QPkt :=
    if k.src.row = p then { k with src := ⟨p, none⟩ } else k
  let b := { b with
    outQ := Tbl.map [] (fun _ l => l.map uncount) b.outQ,
    copying := Tbl.map none (fun _ (o : Option Copying) => o.map fun (c : Copying) =>
      if c.src.row = p then { c with src := ⟨p, none⟩ } else c) b.copying }
  let b := b.modPort p fun x =>
    { x with st := .active, since := b.now, expect := 0, discarding := false, partialRx := none,
             freed := [], grant := [], told := [], stale := List.range 16, cvcB := 0, poolWait := [],
             carry := (List.range 16).foldl
               (fun t v => Tbl.set 0 t v (queueOf b.rxQ (pv p v)).length) [],
             nextSeq := 0, window := [], windowPkts := [], ackGot := 0xFFFF, lastRr := none,
             timeoutAt := none, replayed := false, ackAt := b.now, sent := [], climGot := [], opened := none,
             gotHbAt := b.now, pauseTarget := none, pauseOwed := none, rateHeld := none,
             hasFailed := false, detourTold := false,
             changeResult := if x.changeResult = 1 then 2 else x.changeResult }
  (b.eventAll 1 (b.portEventBody p)).tellDegraded p

/-- The effective dead time of R78. -/
def Block.deadTime (b : Block) (p : Nat) : Nat :=
  max (b.portObj p 6) (4 * 8 * (b.port p).peerHbUnits)

/-- Take back everything queued for port `q`, VC by VC, each queue in its own order (R109). -/
def Block.takeBackQueues (b : Block) (q : Nat) : Block :=
  let all := (List.range 16).flatMap fun v => queueOf b.outQ (pv q v)
  let b := { b with outQ := Tbl.drop (fun k => k / 16 == q) b.outQ,
                    throttled := Tbl.drop (fun k => k / 16 == q) b.throttled }
  all.foldl (fun b x => (b.takeBack q x).leave x.src x.pkt.size) b

/-- What every exit from ACTIVE or RETRAIN does but PORT_DOWN (R87 to R89, R109): a packet received
in part is discarded, and the packets of the window and of the output queues are handed back in
`SEQ` order and queue order. A change of mode under way has failed (R376). -/
def Block.handBack (b : Block) (p : Nat) (st : PortSt) : Block :=
  let x := b.port p
  let open_ := match x.opened with
    | some (_, k) => [k]
    | none => []
  let pkts := x.windowPkts ++ open_
  let b := b.setPort p
    { x with st := st, since := b.now, partialRx := none, window := [], windowPkts := [],
             opened := none, discarding := false, expect := 0, nextSeq := 0, ackGot := 0xFFFF,
             freed := [], grant := [], told := [], stale := [], poolWait := [], sent := [],
             climGot := [], pauseTarget := none, pauseOwed := none, oosWhileFailed := none,
             hasFailed := true, peerSynced := false,
             changeResult := if x.changeResult = 1 then 5 else x.changeResult }
  let b := pkts.foldl (fun b k => b.takeBack p ⟨k.pkt, ⟨k.row, none⟩⟩) b
  b.takeBackQueues p

/-- The link of port `p` fails (R83): FAILED, PORT_DOWN, and the window handed back. -/
def Block.failLink (b : Block) (p : Nat) : Block :=
  if (b.port p).carries then
    let body := b.portEventBody p
    (b.eventAll 0 body).handBack p .failed
  else b

/-- Declare the link dead under R78. -/
def Block.declareDead (b : Block) (p : Nat) : Block :=
  (b.raise (blkPort p) 9 noUnit p).failLink p

/-- Put the port through FAILED, as a full reset, a block reset or a clock hold does (R83, R84,
R396, R429): from ACTIVE or RETRAIN as for a dead link, from other running states at once. -/
def Block.resetPort (b : Block) (p : Nat) : Block :=
  let x := b.port p
  if x.carries then b.failLink p
  else if x.st = .exchange ∨ x.st = .refused ∨ x.st = .training then
    b.setPort p { x with st := .failed, since := b.now, oosWhileFailed := none, hasFailed := true,
                         refuse4At := none }
  else b

/-- The port is disabled (R83). -/
def Block.disablePort (b : Block) (p : Nat) : Block :=
  let b := b.failLink p
  if (b.port p).st = .oos then b
  else b.modPort p fun x =>
    { x with st := .disabled, since := b.now, refuse4At := none,
             changeResult := if x.changeResult = 1 then 5 else x.changeResult }

/-- Target of a mode change: the best mode at the same rate that avoids every retired lane (R86).
Where several lanes or pairs are left, the one taken is open. -/
def Block.avoidMode (b : Block) (x : Port) : Option Nat × Block :=
  let fits (m : Nat) : Bool := (List.range 4).all fun l => !(bit m l && bit x.retiredLanes l)
  let pick := match (laneMasks 4).filter fits, (laneMasks 2).filter fits, (laneMasks 1).filter fits with
    | [], [], c => c
    | [], c, _ => c
    | c, _, _ => c
  let (i, b) := b.choose pick.length
  match pick[i]? with
  | some m => (some (mkMode m (modeRate x.mode)), b)
  | none => (none, b)

/-- Payload of a PAUSE flit (R84). -/
def pausePayload (code target node : Nat) : Bytes :=
  toLe 1 code ++ toLe 1 target ++ zeros 2 ++ toLe 4 node

/-- Enter RETRAIN toward `target` (R84 step 3). -/
def Block.enterRetrain (b : Block) (p target : Nat) : Block :=
  b.modPort p fun x =>
    { x with st := .retrain, since := b.now, retrainTo := target, pauseTarget := none,
             pauseOwed := none, peer := none, lastCapx := none }

/-- Send the PAUSE that is owed once the packet being sent is finished (R84 steps 1 and 2): a REQ waits
for its ACK, and after an ACK the port retrains. While the replay window has no room for the rest of
the packet, the PAUSE stays owed and no packet starts. -/
def Block.sendPause (b : Block) (p : Nat) : Block :=
  let b := b.finishPacket p
  let x := b.port p
  match x.pauseOwed with
  | some (code, target, node) =>
    if x.opened.isSome then b
    else
      let b := (b.setPort p { x with pauseOwed := none }).sendCtl p 5 (pausePayload code target node)
      if code = 2 then b.enterRetrain p target
      else b.modPort p fun x => { x with pauseTarget := some target }
  | none => b

/-- Begin a seamless change to `target` (R84 step 1). -/
def Block.startPause (b : Block) (p target : Nat) : Block :=
  (b.modPort p fun x =>
    { x with pauseOwed := some (1, target, b.nodeId), changeResult := 1 }).sendPause p

/-- Begin a change of mode: seamless where asked and settled, else a full reset (R84, R376), after which
any enabled mode may train, whatever the target (log 128). -/
def Block.changeMode (b : Block) (p target : Nat) (seamless : Bool) : Block :=
  if seamless && (b.port p).seamless then b.startPause p target
  else
    let b := b.failLink p
    b.modPort p fun x => { x with changeResult := if seamless then 4 else 1, retrainTo := target }

/-! ## Capability exchange -/

/-- Partitions that hold this node, one bit each. -/
def Block.ownPartitions (b : Block) : Nat :=
  (List.range 16).foldl (fun n q => n + b2n (b.member q b.nodeId) * 2 ^ q) 0

/-- The capability record the port sends (R81). -/
def Block.ownRecord (b : Block) (p : Nat) : CapRec :=
  let x := b.port p
  let resume := x.st == .retrain
  { verMax := 1, verMin := 1, peerSeen := x.peer.isSome, seamlessOk := x.loaded.seamlessOk,
    timeOk := b.domainRuns clkTime, resume := resume, pvcCount := x.loaded.pvcCount,
    nodeId := b.nodeId, machineId := x.loaded.machineId, partMask := b.ownPartitions,
    replayDepth := b.replayDepth p, hbUnits := x.loaded.hbPeriod / 8,
    mode := if resume then x.retrainTo else x.mode,
    resumeAck := if resume then x.expect - 1 else 0, refuse := x.myRefuse }

/-- Send a CAPX flit (R82). -/
def Block.sendCapx (b : Block) (p : Nat) : Block :=
  let b := b.sendCtl p 4 (b.ownRecord p).encode
  b.modPort p fun x => { x with lastCapx := some b.now }

/-- The refusal a partner's record meets here (R82); 0 for none. Where several of its items refuse, the first of
version, machine, neighbour and mode stands: the rule gives no order (log 175). -/
def Block.refusalOf (b : Block) (p : Nat) (r : CapRec) : Nat :=
  let x := b.port p
  if r.verMax < 1 ∨ 1 < r.verMin then 1
  else if r.machineId ≠ x.loaded.machineId then 2
  else if bit x.loaded.expectNeighbour 31 ∧ bits x.loaded.expectNeighbour 17 0 ≠ r.nodeId then 3
  else if r.mode ≠ x.mode then 4
  else 0

/-- Refuse, or take a refusal (R83): 1 to 3 end in REFUSED, 4 in TRAINING, where CAPX with `REFUSE` 4
goes on being sent for at least 1 µs before a mode trains. -/
def Block.refuse (b : Block) (p code : Nat) : Block :=
  let b := b.modPort p fun x => { x with myRefuse := code, lastRefuse := code }
  let b := b.sendCapx p
  if code = 4 then
    (b.enterTraining p).modPort p fun x =>
      { x with trainAttempts := x.trainAttempts + 1, myRefuse := 4, refuse4At := some b.now }
  else b.modPort p fun x => { x with st := .refused, since := b.now }

/-- Take a capability record in EXCHANGE (R82, R83). On settling, the port sends a last record with
`PEER_SEEN`, so that its partner can settle as well (log 11). A `REFUSE` that R81 does not list is a
refusal that ends in REFUSED (log 129). A refusal that the record brings comes before one that arises here (log
175). -/
def Block.takeCapx (b : Block) (p : Nat) (r : CapRec) : Block :=
  let b := b.modPort p fun x => { x with peer := some r }
  let mine := b.refusalOf p r
  if r.refuse ≠ 0 then b.refuse p r.refuse
  else if mine ≠ 0 then b.refuse p mine
  else if r.peerSeen then
    let b := b.sendCapx p
    let b := b.modPort p fun x =>
      { x with neighbour := r.nodeId, neighbourParts := r.partMask, neighbourDepth := r.replayDepth,
               version := 1, pvcSettled := min r.pvcCount x.loaded.pvcCount,
               seamless := r.seamlessOk && x.loaded.seamlessOk,
               timeOk := r.timeOk && b.domainRuns clkTime, peerHbUnits := r.hbUnits }
    b.activate p
  else b

/-- Take a PAUSE flit in ACTIVE (R84). A REQ that meets one still owed here is answered, and the own one
is dropped: as refused where its target is another (log 130). -/
def Block.takePause (b : Block) (p : Nat) (pl : Bytes) : Block :=
  let x := b.port p
  let target := bits (fld pl 1 1) 5 0
  let node := bits (fld pl 4 4) 17 0
  let answer (b : Block) : Block :=
    (b.modPort p fun x => { x with pauseOwed := some (2, target, node), pauseTarget := none }
      ).sendPause p
  match fld pl 0 1, x.pauseTarget with
  | 1, none =>
    match x.pauseOwed with
    | some (1, t, _) =>
      answer (if t = target then b else b.modPort p fun x => { x with changeResult := 3 })
    | _ => answer b
  | 1, some t =>
    if t = target then b.enterRetrain p target
    else if b.nodeId < node then answer (b.modPort p fun x => { x with changeResult := 3 })
    else b
  | 2, some t => b.enterRetrain p t
  | _, _ => b

/-! ## Receiving packets -/

/-- A packet being gathered from a flit's grains, and those found whole (R67). -/
structure Gathering where
  cur : Option (Nat × Bytes)
  done : List (Nat × Pkt) := []
  ok : Bool := true
  deriving DecidableEq, Repr

/-- Take grain `i` of a DATA flit (R67). A packet whose `GRAINS` is below 3 ends before its own header word:
the flit breaks R67 (log 154). -/
def Gathering.grain (g : Gathering) (f : Flit) (i : Nat) : Gathering :=
  let bytes := slice f.payload (16 * i) 16
  let starts := f.start != 15 && decide (f.start ≤ i)
  match g.cur with
  | none => if starts then { g with cur := some (f.vc, bytes) } else { g with ok := false }
  | some (v, bs) =>
    if f.start = i then { g with ok := false }
    else
      let bs := bs ++ bytes
      let n := bs.length / 16
      if n < 3 then { g with cur := some (v, bs) }
      else
        let size := bits (fld bs 32 4) 21 13
        if size < 3 then { g with ok := false }
        else if n = size then { g with cur := none, done := g.done ++ [(v, Pkt.decode bs)] }
        else { g with cur := some (v, bs) }

/-- A DATA flit that is not in order keeps to R67, as far as it tells without the packet it continues: the
packets that start in it have their lengths, and with fill it ends at a packet's end. -/
def Flit.wellFilled (f : Flit) : Bool :=
  let g := ((List.range f.used).drop f.start).foldl (fun g i => g.grain f i) ({ cur := none } : Gathering)
  g.ok && decide (1 ≤ f.used) && (f.start == 15 || decide (f.start < f.used)) &&
    (f.used == 15 || g.cur.isNone) && allZero (f.payload.drop (16 * f.used))

/-- The packets of an in-order DATA flit, or none where it breaks R67. -/
def gatherFlit (cur : Option (Nat × Bytes)) (f : Flit) : Option Gathering :=
  let g := (List.range f.used).foldl (fun g i => g.grain f i) { cur := cur }
  if g.ok && decide (1 ≤ f.used) && (f.start == 15 || decide (f.start < f.used)) &&
      (f.used == 15 || g.cur.isNone) && allZero (f.payload.drop (16 * f.used))
  then some g else none

/-- Accept the payload of the DATA flit in order (R69, R75). -/
def Block.acceptData (b : Block) (p : Nat) (f : Flit) (g : Gathering) : Block :=
  let b := b.modPort p fun x =>
    { x with expect := x.expect + 1, discarding := false, partialRx := g.cur,
             winRx := x.winRx + 16 * f.used }
  let b := g.done.foldl (fun b d =>
    let k := pv p d.1
    { b with rxQ := Tbl.set [] b.rxQ k (queueOf b.rxQ k ++ [d.2]) }) b
  let vcs := (g.done.map (·.1) ++ (match g.cur with
    | some (v, _) => [v]
    | none => [])).eraseDups
  let b := vcs.foldl (fun b v => b.creditCheck p v ((b.port p).clim v)) b
  (b.count (portCtr p 1) (16 * f.used)).count (portCtr p 3) 1

/-- A bad CRC, or what is treated as one (R63, R66, R67, R69). -/
def Block.badFlit (b : Block) (p : Nat) : Block :=
  let b := b.count (portCtr p 5) 1
  if (b.port p).carries then b.modPort p fun x => { x with discarding := true } else b

/-- Use `ACK`, `RR` and the credit slots of a good header (R69, R70, R76). A request due together with a
replay timeout has its replay already; while a PAUSE REQ that was sent awaits its ACK none starts (log 176). -/
def Block.takeHeader (b : Block) (p : Nat) (f : Flit) : Block :=
  let b := b.takeAck p f.ack
  let b := b.modPort p fun x =>
    { x with climGot := Tbl.set 0 (Tbl.set 0 x.climGot f.cvcA f.climA) f.cvcB f.climB }
  if !f.rr then b
  else
    let x := b.port p
    let due := match x.lastRr with
      | none => true
      | some (a, t) => a != f.ack || decide (t + 2000 ≤ b.now)
    if due && x.st == .active && x.pauseTarget.isNone then
      let b := b.modPort p fun x => { x with lastRr := some (f.ack, b.now) }
      if x.timeoutAt = some b.now then b else b.replay p
    else b

end Sys2Proof.Machine
end

