-- ==== Sys2Proof/Machine/LockOps.lean ====
section
/-! DEFINITION. Lock cells: assignment, grants, release and what a reset does to them (R333 to R345). -/

namespace Sys2Proof.Machine

/-- The function of a host master identity (R333). -/
def masterFid (m : Nat) : Nat := fidOf (m / 1024) (m / 8 % 128)

/-- Cell `cell` is assigned to host link `hl` (R334). -/
def Block.cellOf (b : Block) (hl cell : Nat) : Bool :=
  b.present hl && decide (cell < 240) && decide (b.quota hl 19 ≤ cell) &&
    decide (cell < b.quota hl 19 + b.quota hl 20)

/-- Grant a cell (R338): the grant is recorded, and then its vector sent. -/
def Block.lockGrant (b : Block) (cell : Nat) (w : LockWait) (forced : Bool) : Block :=
  let l := b.lock cell
  let b := b.setLock cell
    { l with owner := w.master, held := true, forced := forced, grantSeq := l.grantSeq + 1 }
  let fid := masterFid w.master
  let b := (b.count 800 1).countEvent 18 fid none 1
  match w.vector with
  | some v => b.msix fid v
  | none => b

/-- The holder goes: the cell passes to the first waiter, or becomes free (R338). What `OWNER` holds
while the cell is free has no meaning, so it is a free value. -/
def Block.lockPass (b : Block) (cell : Nat) (forced orphaned : Bool) : Block :=
  let l := b.lock cell
  match l.waiters with
  | w :: t => (b.setLock cell { l with waiters := t, orphaned := orphaned }).lockGrant cell w forced
  | [] =>
    let (o, b) := b.choose 4096
    b.setLock cell { l with owner := o, held := false, forced := false, orphaned := orphaned }

/-- A cell written without right or out of place: dropped, counted, and raised (R336). -/
def Block.lockMisuse (b : Block) (fid cell : Nat) : Block :=
  (b.count 802 1).raiseAs (blkHl (fidLink fid)) 8 noUnit cell false (some fid)

/-- The place of a master in a cell (R334): 0 none, 1 holder, 2 on waiting. -/
def Lock.place (l : Lock) (m : Nat) : Nat :=
  if l.held && l.owner == m then 1
  else
    match l.waiters.findIdx? fun w => w.master == m with
    | some i => i + 2
    | none => 0

/-- A cell as function `fid` reads it. -/
def Block.lockRead (b : Block) (fid cell : Nat) : Nat :=
  let l := b.lock cell
  let m := masterOf fid
  l.owner + b2n l.held * 2 ^ 12 + b2n l.orphaned * 2 ^ 13 + b2n l.forced * 2 ^ 14 +
    l.mode * 2 ^ 16 + l.waiters.length * 2 ^ 18 + l.place m * 2 ^ 24 +
    b2n (l.refused.contains m) * 2 ^ 30 + l.grantSeq.toNat * 2 ^ 32

/-- Return a host link's cells to FREE in NATIVE mode, `GRANT_SEQ` kept (R335, R343). -/
def Block.lockFree (b : Block) (cell : Nat) : Block :=
  b.setLock cell { grantSeq := (b.lock cell).grantSeq }

/-- All cells of a host link (R343); in quench they keep their state (R345). -/
def Block.lockClear (b : Block) (hl : Nat) : Block :=
  if b.quench then b
  else ((List.range 240).filter (b.cellOf hl)).foldl (fun b c => b.lockFree c) b

/-- A VF that is reset leaves cell `cell` (R344). -/
def Block.lockLeave (b : Block) (fid cell : Nat) : Block :=
  let m := masterOf fid
  let l := b.lock cell
  let b := b.setLock cell
    { l with waiters := l.waiters.filter (fun w => !(w.master == m)),
             refused := l.refused.filter (fun r => !(r == m)) }
  if l.held && l.owner == m then
    let b := (b.count 803 1).lockPass cell false true
    let body := toLe 1 cell ++ zeros 1 ++ toLe 2 m
    let pf := fidOf (fidLink fid) 0
    let got := b.lock cell
    let b := if got.held && masterFid got.owner != pf then b.event (masterFid got.owner) 9 body else b
    b.event pf 9 body
  else b

/-- A VF that is reset leaves every cell of its host link (R344); in quench they keep their state (R345). -/
def Block.lockOrphan (b : Block) (fid : Nat) : Block :=
  if b.quench then b
  else ((List.range 240).filter (b.cellOf (fidLink fid))).foldl (fun b c => b.lockLeave fid c) b

end Sys2Proof.Machine
end

