-- ==== Sys2Proof/Machine/Crucible.lean ====
section
/-! DEFINITION. The arithmetic of the crucibles (R299 to R310): `COMBINE` codes, integer and
floating-point operators, and the binned elements. -/

namespace Sys2Proof.Machine

/-! ## Codes -/

/-- `CTYPE` of a code (R299). -/
def cType (code : Nat) : Nat := bits code 3 0
/-- `COP` of a code (R299). -/
def cOp (code : Nat) : Nat := bits code 7 4
/-- `CMODE` of a code (R299). -/
def cMode (code : Nat) : Nat := bits code 9 8

/-- Bytes of an element of the type (R300). -/
def cSize (ty : Nat) : Nat :=
  match ty with
  | 1 => 4
  | 2 => 4
  | 3 => 8
  | 4 => 8
  | 5 => 2
  | 6 => 8
  | 7 => 2
  | 8 => 4
  | 9 => 32
  | 10 => 32
  | _ => 1

/-- The code is defined (R300); `combine` for a COMBINE step, which alone may encode and decode, and
`zeroLen` for a GATHER of `LEN` 0. -/
def codeOk (code : Nat) (combine zeroLen : Bool) : Bool :=
  let t := cType code
  let o := cOp code
  if 2 ^ 10 ≤ code then false
  else if code = 0 then zeroLen && !combine
  else
    match cMode code with
    | 1 => if t = 0 ∨ 8 < t then false
      else if t ≤ 4 then decide (1 ≤ o) && decide (o ≤ 7)
      else decide (1 ≤ o) && decide (o ≤ 4)
    | 2 => (t == 9 || t == 10) && (o == 1 || (combine && (o == 8 || o == 9)))
    | _ => false

/-- What the crucibles count (R305, R309, R410): invalid operations, overflows to infinity, NaN
results, and malformed binned elements. -/
structure CruCount where
  invalid : Nat := 0
  overflow : Nat := 0
  nan : Nat := 0
  badBin : Nat := 0
  deriving DecidableEq, Repr

/-- Two counts together. -/
def CruCount.add (a b : CruCount) : CruCount :=
  { invalid := a.invalid + b.invalid, overflow := a.overflow + b.overflow, nan := a.nan + b.nan,
    badBin := a.badBin + b.badBin }

/-! ## Floating point -/

/-- A binary format: bits of exponent and of fraction (R304). -/
structure FpFmt where
  eb : Nat
  fb : Nat
  deriving DecidableEq, Repr

/-- The format of a type. -/
def fpFmt (ty : Nat) : FpFmt :=
  match ty with
  | 5 => ⟨5, 10⟩
  | 7 => ⟨8, 7⟩
  | 8 => ⟨8, 23⟩
  | _ => ⟨11, 52⟩

/-- The bias of the exponent. -/
def FpFmt.bias (f : FpFmt) : Nat := 2 ^ (f.eb - 1) - 1
/-- Width in bits. -/
def FpFmt.width (f : FpFmt) : Nat := 1 + f.eb + f.fb
/-- The canonical quiet NaN (R305). -/
def FpFmt.nan (f : FpFmt) : Nat := (2 ^ (f.eb + 1) - 1) * 2 ^ (f.fb - 1)
/-- An infinity. -/
def FpFmt.inf (f : FpFmt) (neg : Bool) : Nat := (2 ^ f.eb - 1) * 2 ^ f.fb + b2n neg * 2 ^ (f.eb + f.fb)
/-- A zero. -/
def FpFmt.zero (f : FpFmt) (neg : Bool) : Nat := b2n neg * 2 ^ (f.eb + f.fb)

/-- A floating-point datum. A finite one is mant × 2^exp with its sign. -/
inductive Fp where
  | nan (signalling : Bool)
  | inf (neg : Bool)
  | fin (neg : Bool) (mant : Nat) (exp : Int)
  deriving DecidableEq, Repr

/-- The datum that bits spell. -/
def FpFmt.decode (f : FpFmt) (v : Nat) : Fp :=
  let neg := bit v (f.eb + f.fb)
  let e := bits v (f.eb + f.fb - 1) f.fb
  let m := bits v (f.fb - 1) 0
  if e = 2 ^ f.eb - 1 then (if m = 0 then .inf neg else .nan (!bit v (f.fb - 1)))
  else if e = 0 then .fin neg m (1 - (f.bias : Int) - f.fb)
  else .fin neg (m + 2 ^ f.fb) ((e : Int) - f.bias - f.fb)

/-- mant × 2^exp rounded to the format, nearest with ties to even (R305); true on overflow to
infinity. -/
def FpFmt.round (f : FpFmt) (neg : Bool) (mant : Nat) (exp : Int) : Nat × Bool :=
  if mant = 0 then (f.zero neg, false)
  else
    let emin : Int := 1 - (f.bias : Int)
    let e : Int := (Nat.log2 mant : Int) + exp
    let q : Int := max e emin - f.fb
    let s : Int := q - exp
    let m :=
      if s ≤ 0 then mant * 2 ^ (-s).toNat
      else
        let d := 2 ^ s.toNat
        let r := mant % d
        let t := mant / d
        if d < 2 * r ∨ (d = 2 * r ∧ t % 2 = 1) then t + 1 else t
    let (m, q) := if m = 2 ^ (f.fb + 1) then (2 ^ f.fb, q + 1) else (m, q)
    if m < 2 ^ f.fb then (m + f.zero neg, false)
    else
      let biased := (q + f.fb + f.bias).toNat
      if 2 ^ f.eb - 1 ≤ biased then (f.inf neg, true)
      else (biased * 2 ^ f.fb + (m - 2 ^ f.fb) + f.zero neg, false)

/-- A NaN result, with what it counts. -/
def FpFmt.toNan (f : FpFmt) (invalid : Bool) : Nat × CruCount :=
  (f.nan, { invalid := b2n invalid, nan := 1 })

/-- The datum is a signalling NaN. -/
def Fp.signals : Fp → Bool
  | .nan s => s
  | _ => false

/-- Is the datum a NaN. -/
def Fp.isNan : Fp → Bool
  | .nan _ => true
  | _ => false

/-- mant × 2^exp brought to exponent `e ≤ exp`, signed. -/
def scaled (neg : Bool) (mant : Nat) (exp e : Int) : Int :=
  let v : Int := ((mant * 2 ^ (exp - e).toNat : Nat) : Int)
  if neg then -v else v

/-- IEEE 754 addition (R304). -/
def FpFmt.add (f : FpFmt) (a b : Nat) : Nat × CruCount :=
  let x := f.decode a
  let y := f.decode b
  if x.isNan || y.isNan then f.toNan (x.signals || y.signals)
  else
    match x, y with
    | .inf s, .inf t => if s = t then (f.inf s, {}) else f.toNan true
    | .inf s, _ => (f.inf s, {})
    | _, .inf t => (f.inf t, {})
    | .fin s m e, .fin t n g =>
      let lo := min e g
      let v := scaled s m e lo + scaled t n g lo
      if v = 0 then (f.zero (s && t), {})
      else
        let (r, o) := f.round (decide (v < 0)) v.natAbs lo
        (r, { overflow := b2n o })
    | _, _ => f.toNan false

/-- IEEE 754 multiplication (R304). -/
def FpFmt.mul (f : FpFmt) (a b : Nat) : Nat × CruCount :=
  let x := f.decode a
  let y := f.decode b
  if x.isNan || y.isNan then f.toNan (x.signals || y.signals)
  else
    match x, y with
    | .inf s, .inf t => (f.inf (s != t), {})
    | .inf s, .fin t n _ => if n = 0 then f.toNan true else (f.inf (s != t), {})
    | .fin s m _, .inf t => if m = 0 then f.toNan true else (f.inf (s != t), {})
    | .fin s m e, .fin t n g =>
      let (r, o) := f.round (s != t) (m * n) (e + g)
      (r, { overflow := b2n o })
    | _, _ => f.toNan false

/-- The order key of a non-NaN datum's bits: -0 below +0 (R304). -/
def FpFmt.key (f : FpFmt) (v : Nat) : Int :=
  let m : Nat := v % 2 ^ (f.eb + f.fb)
  if bit v (f.eb + f.fb) then -(m : Int) - 1 else m

/-- IEEE 754-2019 minimum, or maximum (R304). -/
def FpFmt.pick (f : FpFmt) (takeMax : Bool) (a b : Nat) : Nat × CruCount :=
  let x := f.decode a
  let y := f.decode b
  if x.isNan || y.isNan then f.toNan (x.signals || y.signals)
  else if (decide (f.key a < f.key b)) != takeMax then (a, {})
  else (b, {})

/-- A floating-point operator (R304). -/
def fpOp (ty op a b : Nat) : Nat × CruCount :=
  let f := fpFmt ty
  match op with
  | 1 => f.add a b
  | 2 => f.mul a b
  | 3 => f.pick false a b
  | _ => f.pick true a b

/-! ## Integers -/

/-- An integer operator (R304); types 1 and 3 are signed. -/
def intOp (ty op a b : Nat) : Nat :=
  let w := 8 * cSize ty
  let less := if ty % 2 = 1 then decide (signed w a < signed w b) else decide (a < b)
  match op with
  | 1 => (a + b) % 2 ^ w
  | 2 => a * b % 2 ^ w
  | 3 => if less then a else b
  | 4 => if less then b else a
  | 5 => a &&& b
  | 6 => a ||| b
  | _ => a ^^^ b

/-! ## Binned elements -/

/-- A binned element (R307); `bin` is none when it is empty. -/
structure Bin where
  bin : Option Int := none
  flags : Nat := 0
  count : Nat := 0
  a0 : Int := 0
  a1 : Int := 0
  a2 : Int := 0
  deriving DecidableEq, Repr

/-- The signed 64-bit number congruent to `v`. -/
def wrap64 (v : Int) : Int := signed 64 (v % 2 ^ 64).toNat
/-- The `w`-bit two's complement of `v`. -/
def unsign (w : Nat) (v : Int) : Nat := (v % 2 ^ w).toNat

/-- An element as 32 bytes (R307). -/
def Bin.encode (x : Bin) : Bytes :=
  toLe 2 (match x.bin with
    | some b => unsign 16 b
    | none => 0x8000) ++ toLe 1 x.flags ++ zeros 1 ++ toLe 4 x.count ++
    toLe 8 (unsign 64 x.a0) ++ toLe 8 (unsign 64 x.a1) ++ toLe 8 (unsign 64 x.a2)

/-- The element that 32 bytes hold, and whether it is malformed, when it counts as NaN with its own
`COUNT` (R309). Type 9 is BIN64. -/
def Bin.decode (ty : Nat) (bs : Bytes) : Bin × Bool :=
  let raw := fld bs 0 2
  let b := signed 16 raw
  let x : Bin :=
    { bin := if raw = 0x8000 then none else some b, flags := fld bs 2 1, count := fld bs 4 4,
      a0 := signed 64 (fld bs 8 8), a1 := signed 64 (fld bs 16 8), a2 := signed 64 (fld bs 24 8) }
  let inRange := if ty = 9 then decide (-34 ≤ b) && decide (b ≤ 31)
    else decide (-5 ≤ b) && decide (b ≤ 3)
  let bad := (raw != 0x8000 && !inRange) ||
    (raw == 0x8000 && !(x.a0 == 0 && x.a1 == 0 && x.a2 == 0)) ||
    decide (16 ≤ x.flags) || fld bs 3 1 != 0
  if bad then ({ flags := x.flags % 16 ||| 1, count := x.count }, true) else (x, false)

/-- ENCODE one value of FP64 (type 9) or FP32 (type 10) (R308). -/
def binEncode (ty v : Nat) : Bin :=
  match (fpFmt (if ty = 9 then 6 else 8)).decode v with
  | .nan _ => { count := 1, flags := 1 }
  | .inf false => { count := 1, flags := 2 }
  | .inf true => { count := 1, flags := 4 }
  | .fin neg mant exp =>
    if mant = 0 then { count := 1 }
    else
      let e : Int := (Nat.log2 mant : Int) + exp
      let b := e / 32
      let s := exp - 32 * (b - 2)
      let m := if 0 ≤ s then mant * 2 ^ s.toNat else mant / 2 ^ (-s).toNat
      let sg (n : Nat) : Int := if neg then -(n : Int) else n
      { bin := some b, count := 1, a0 := sg (bits m 95 64), a1 := sg (bits m 63 32),
        a2 := sg (bits m 31 0) }

/-- The bins of an element moved down by `d` positions; what falls below is dropped (R309). -/
def Bin.down (x : Bin) (d : Nat) : Int × Int × Int :=
  match d with
  | 0 => (x.a0, x.a1, x.a2)
  | 1 => (0, x.a0, x.a1)
  | 2 => (0, 0, x.a0)
  | _ => (0, 0, 0)

/-- The sums of one input against top bin `b`. -/
def Bin.against (x : Bin) (b : Int) : Int × Int × Int :=
  match x.bin with
  | some k => x.down (b - k).toNat
  | none => (0, 0, 0)

/-- SUM merges two elements (R309). -/
def Bin.merge (p q : Bin) : Bin :=
  let n := p.count + q.count
  let tooMany := decide (2 ^ 31 - 1 < n)
  let flags := (p.flags ||| q.flags) ||| (if tooMany then 8 else 0)
  let count := if tooMany then 2 ^ 31 - 1 else n
  let top := match p.bin, q.bin with
    | some a, some b => some (max a b)
    | some a, none => some a
    | none, b => b
  match top with
  | none => { flags := flags, count := count }
  | some b =>
    let x := p.against b
    let y := q.against b
    { bin := some b, flags := flags, count := count, a0 := wrap64 (x.1 + y.1),
      a1 := wrap64 (x.2.1 + y.2.1), a2 := wrap64 (x.2.2 + y.2.2) }

/-- DECODE one element to FP64 or FP32 (R310). -/
def binDecode (ty : Nat) (x : Bin) : Nat × CruCount :=
  let f := fpFmt (if ty = 9 then 6 else 8)
  if bit x.flags 3 || bit x.flags 0 || (bit x.flags 1 && bit x.flags 2) then (f.nan, { nan := 1 })
  else if bit x.flags 1 then (f.inf false, {})
  else if bit x.flags 2 then (f.inf true, {})
  else
    match x.bin with
    | none => (f.zero false, {})
    | some b =>
      let s : Int := x.a0 * 2 ^ 64 + x.a1 * 2 ^ 32 + x.a2
      if s = 0 then (f.zero false, {})
      else
        let (r, o) := f.round (decide (s < 0)) s.natAbs (32 * (b - 2))
        (r, { overflow := b2n o })

/-! ## Whole ranges -/

/-- One element combine of a code with `COP` SUM to XOR (R304, R309). -/
def combineOne (code : Nat) (a b : Bytes) : Bytes × CruCount :=
  let t := cType code
  let o := cOp code
  if t = 9 ∨ t = 10 then
    let (x, e) := Bin.decode t a
    let (y, g) := Bin.decode t b
    ((x.merge y).encode, { badBin := b2n e + b2n g })
  else if t ≤ 4 then (toLe (cSize t) (intOp t o (leNat a) (leNat b)), {})
  else
    let (r, n) := fpOp t o (leNat a) (leNat b)
    (toLe (cSize t) r, n)

/-- Combine two ranges element by element (R301). -/
def combineBytes (code : Nat) (a b : Bytes) : Bytes × CruCount :=
  let k := cSize (cType code)
  (List.range (a.length / k)).foldl (fun acc i =>
    let (r, n) := combineOne code (slice a (k * i) k) (slice b (k * i) k)
    (acc.1 ++ r, acc.2.add n)) ([], {})

/-- Combine the contributions of a record in position order: a left fold (R290, R306). -/
def combineAll (code : Nat) : List Bytes → Bytes × CruCount
  | [] => ([], {})
  | c :: t => t.foldl (fun acc d =>
      let (r, n) := combineBytes code acc.1 d
      (r, acc.2.add n)) (c, {})

/-- ENCODE a range of values into binned elements (R303). -/
def encodeRange (ty : Nat) (vals : Bytes) : Bytes :=
  let k := if ty = 9 then 8 else 4
  ((List.range (vals.length / k)).map fun i => (binEncode ty (fld vals (k * i) k)).encode).flatten

/-- DECODE a range of binned elements (R303). -/
def decodeRange (ty : Nat) (els : Bytes) : Bytes × CruCount :=
  let k := if ty = 9 then 8 else 4
  (List.range (els.length / 32)).foldl (fun acc i =>
    let (x, bad) := Bin.decode ty (slice els (32 * i) 32)
    let (r, n) := binDecode ty x
    (acc.1 ++ toLe k r, (acc.2.add n).add { badBin := b2n bad })) ([], {})

end Sys2Proof.Machine
end

