-- ==== Sys2Proof/Machine/Protect.lean ====
section
/-! DEFINITION. Statuses (R269), keys and regions (R149 to R157), the atomic pool (R160 to R164),
accesses to a region (R158), and the connection and region-key caches (R127 to R131, R154, R215). -/

namespace Sys2Proof.Machine

/-! ## Status codes (R269) -/

def stOk : Nat := 0x00
def stMalformed : Nat := 0x01
def stBadOpcode : Nat := 0x02
def stPdMismatch : Nat := 0x03
def stKeyInvalid : Nat := 0x04
def stKeyStale : Nat := 0x05
def stBounds : Nat := 0x06
def stAccess : Nat := 0x07
def stFenced : Nat := 0x08
def stTimeout : Nat := 0x09
def stRetryExceeded : Nat := 0x0A
def stRnrExceeded : Nat := 0x0B
def stRemoteAbort : Nat := 0x0C
def stTruncated : Nat := 0x0D
def stConnError : Nat := 0x0E
def stFlushed : Nat := 0x0F
def stMouldBreak : Nat := 0x10
def stMouldInvalid : Nat := 0x11
def stHostDmaError : Nat := 0x12
def stUnroutable : Nat := 0x13
def stCapacity : Nat := 0x14

/-! ## Keys -/

/-- Key of a PD in the PD table. -/
def pdKey (hl pd : Nat) : Nat := hl * 2 ^ 20 + pd
/-- Key of a region index in the region table. -/
def regKey (hl idx : Nat) : Nat := hl * 2 ^ 24 + idx
/-- Key of a matching context. -/
def mctxKey (hl id : Nat) : Nat := hl * 2 ^ 16 + id
/-- Host link of a context number (R123). -/
def ctxLink (c : Nat) : Nat := c / 2 ^ 24

/-- The PD is a live PD of the function (R149). -/
def Block.pdOk (b : Block) (fid pd : Nat) : Bool :=
  let p := b.pd (pdKey (fidLink fid) pd)
  p.live && p.fid == fid

/-- What a key check comes to (R152). -/
inductive KeyCheck where
  | fail (status : Nat)
  | region (key : Nat) (r : Reg)
  deriving DecidableEq, Repr

/-- The key check of R152, on host link `hl`. An operation that held the key before its deregistration
began still finds the region (R153). For any other, from the time the deregistration is recorded the key answers
KEY_STALE, while the index keeps its generation until the region is free: a key of the next generation answers
KEY_STALE meanwhile (log 180). -/
def Block.keyCheck (b : Block) (hl key : Nat) (held : Bool := false) : KeyCheck :=
  let idx := bits key 23 0
  let gen := bits key 31 24
  let r := b.reg (regKey hl idx)
  if (b.link hl).regPantry.count ≤ idx ∨ gen = 0 then .fail stKeyInvalid
  else if gen ≠ r.gen || (r.closing && !held) then .fail stKeyStale
  else if !r.live || r.unusable then .fail stKeyInvalid
  else .region (regKey hl idx) r

/-- The region an operation that has passed its checks accesses by a local key: one whose
deregistration waits for it still stands (R153). -/
def Block.keyRegion (b : Block) (hl key : Nat) : Option (Nat × Reg) :=
  let k := regKey hl (bits key 23 0)
  let r := b.reg k
  if r.live && bits key 31 24 == r.gen && !r.unusable then some (k, r) else none

/-- The bytes `a` to `a + n - 1` lie in the region (R156, R157). -/
def Reg.covers (r : Reg) (a n : Nat) : Bool :=
  decide (r.start ≤ a) && decide (a + n ≤ r.start + r.length)

/-- `LOCAL_WRITE`, `REMOTE_READ`, `REMOTE_WRITE` and `REMOTE_ATOMIC` in `RIGHTS` (R150). -/
def rightLocalWrite : Nat := 0
def rightRead : Nat := 1
def rightWrite : Nat := 2
def rightAtomic : Nat := 3

/-- The local-buffer checks of R157; `right` is the right the operation needs, and `held` says that it
held the key in time (R153). -/
def Block.localCheck (b : Block) (hl pd key addr len : Nat) (right : Option Nat) (held : Bool) : Nat :=
  if len = 0 then stOk
  else
    match b.keyCheck hl key held with
    | .fail s => s
    | .region _ r =>
      if r.pool then stKeyInvalid
      else if r.pd ≠ pd then stPdMismatch
      else if (match right with
          | some k => !bit r.rights k
          | none => false) then stAccess
      else if r.covers addr len then stOk else stBounds

/-! ## The atomic pool -/

/-- A word of the pool; zero where nothing is written (R164). -/
def Block.poolWordAt (b : Block) (w : Nat) : BitVec 64 := Tbl.get 0 b.pool w
/-- Write a word of the pool. -/
def Block.setPoolWord (b : Block) (w : Nat) (v : BitVec 64) : Block :=
  { b with pool := Tbl.set 0 b.pool w v }

/-- Byte `o` of a pool region. -/
def Block.poolByte (b : Block) (r : Reg) (o : Nat) : Byte :=
  BitVec.ofNat 8 ((b.poolWordAt (r.poolWord + o / 8)).toNat / 256 ^ (o % 8))

/-- Write one byte of a pool region. -/
def Block.setPoolByte (b : Block) (r : Reg) (o : Nat) (v : Byte) : Block :=
  let w := r.poolWord + o / 8
  let old := (b.poolWordAt w).toNat
  b.setPoolWord w (BitVec.ofNat 64 (setBits old (8 * (o % 8) + 7) (8 * (o % 8)) v.toNat))

/-- `n` bytes of a pool region from offset `o`. -/
def Block.poolRead (b : Block) (r : Reg) (o n : Nat) : Bytes :=
  (List.range n).map fun i => b.poolByte r (o + i)

/-- Write bytes into a pool region from offset `o`. -/
def Block.poolWrite (b : Block) (r : Reg) (o : Nat) : Bytes → Block
  | [] => b
  | v :: t => (b.setPoolByte r o v).poolWrite r (o + 1) t

/-- The new value of an ATOMIC of `w` bits (R160). -/
def atomicNew (aop w : Nat) (sgn : Bool) (old o0 o1 : Nat) : Nat :=
  let m := 2 ^ w
  let a := o0 % m
  let less := if sgn then decide (signed w old < signed w a) else decide (old < a)
  match aop with
  | 0 => (old + a) % m
  | 1 => a
  | 2 => if old = a then o1 % m else old
  | 3 => old &&& a
  | 4 => old ||| a
  | 5 => old ^^^ a
  | 6 => if less then old else a
  | 7 => if less then a else old
  | _ => old

/-- Run an ATOMIC on the pool word at offset `o` of a region; the old value and the block. -/
def Block.poolAtomic (b : Block) (r : Reg) (o aop w : Nat) (sgn : Bool) (o0 o1 : Nat) :
    Nat × Block :=
  let old := leNat (b.poolRead r o (w / 8))
  (old, b.poolWrite r o (toLe (w / 8) (atomicNew aop w sgn old o0 o1)))

/-! ## Accesses to a region -/

/-- The DMA address of address `a` of a `HOST` region (R158). -/
def Reg.dma (r : Reg) (a : Nat) : Nat := (r.dmaAddr + (a - r.start)) % 2 ^ 64

/-- Write bytes at address `a` of a region, of either kind (R158, R159). -/
def Block.regWrite (b : Block) (r : Reg) (a : Nat) (data : Bytes) : Bool × Block :=
  if r.pool then (true, b.poolWrite r (a - r.start) data)
  else b.hostWrite r.fid r.pasid r.relaxed (r.dma a) data

/-- Write into the local buffer named by `key` (R158); false where the key names no region any more
or the write cannot be issued. -/
def Block.localWrite (b : Block) (hl key addr : Nat) (data : Bytes) : Bool × Block :=
  match b.keyRegion hl key with
  | none => (false, b)
  | some (_, r) => b.regWrite { r with relaxed := false } addr data

/-- Start a read of a local buffer (R158); false where it cannot be issued. -/
def Block.localRead (b : Block) (hl key addr len : Nat) (purpose : DmaPurpose) : Bool × Block :=
  match b.keyRegion hl key with
  | none => (false, b)
  | some (k, r) =>
    if b.canIssue r.fid r.pasid (r.dma addr) len then
      (true, b.dmaIssue r.fid r.pasid .read (r.dma addr) len 0 0 (some k) purpose)
    else (false, b)

/-! ## The caches -/

/-- Entries of the connection cache in service (R127, R390, R399). -/
def Block.ctxCacheSize (b : Block) : Nat := b.carveOf 4 * 4
/-- Entries of the region-key cache in service (R154, R390, R399). -/
def Block.regCacheSize (b : Block) : Nat := b.carveOf 8 * 32

/-- Words of the atomic pool in service (R163, R390, R399). -/
def Block.poolWords (b : Block) : Nat := b.carveOf 11 * 128

/-- The `POOL` regions, as first word and number of words. -/
def Block.poolRuns (b : Block) : List (Nat × Nat) :=
  (b.regs.filter fun e => e.2.live && e.2.pool).map fun e => (e.2.poolWord, e.2.length / 8)

/-- A run of `n` free pool words (R150): where it starts is the device's choice. -/
def Block.poolPlace (b : Block) (n : Nat) : Option Nat × Block :=
  let runs := b.poolRuns
  let starts := (0 :: runs.map fun r => r.1 + r.2).filter fun w =>
    decide (w + n ≤ b.poolWords) && runs.all fun r => !overlaps w n r.1 r.2
  let (i, b) := b.choose starts.length
  (starts[i]?, b)

/-- The context holds a cache entry. -/
def Ctx.cached (c : Ctx) : Bool := !(c.st == .free) && !c.spilled
/-- The region holds a cache entry. -/
def Reg.cached (r : Reg) : Bool := r.live && !r.spilled

/-- The key of the least recently used entry that `ok` picks. -/
def oldest (ok : Nat → α → Bool) (used : α → Nat) : Tbl α → Option (Nat × Nat)
  | [] => none
  | (k, v) :: t =>
    let rest := oldest ok used t
    if ok k v then
      match rest with
      | some (j, u) => if u < used v then some (j, u) else some (k, used v)
      | none => some (k, used v)
    else rest

/-- The entry to spill so that host link `hl` gets one (R215): the least recently used among host
links above their minimum, else of the host link itself. -/
def spillVictim (t : Tbl α) (cached : α → Bool) (free : Nat → α → Bool) (used : α → Nat)
    (minimum : Nat → Nat) (hl : Nat) : Option Nat :=
  let rich (n : Nat) : Bool :=
    decide (minimum n < Tbl.count (fun k v => k / 2 ^ 24 == n && cached v) t)
  match oldest (fun k v => rich (k / 2 ^ 24) && cached v && free k v) used t with
  | some (k, _) => some k
  | none => (oldest (fun k v => k / 2 ^ 24 == hl && cached v && free k v) used t).map (·.1)

/-- The context whose packet a request in flight serves. -/
def DmaPurpose.context : DmaPurpose → Option Nat
  | .getRead c _ _ _ _ => some c
  | .hostAtomic c _ => some c
  | .casRead c _ _ => some c
  | .casTry c _ _ _ => some c
  | .payload _ _ => none
  | .mouldCopyIn _ _ _ => none
  | .fill _ _ => none

/-- A transport engine holds a packet of the context (R130). -/
def Ctx.pinned (c : Ctx) : Bool := !c.inHand.isEmpty || !c.waiting.isEmpty

/-- A payload read of operation `n` is in flight. -/
def Block.readingFor (b : Block) (n : Nat) : Bool :=
  b.dma.any fun d =>
    match d.purpose with
    | .payload m _ => m == n
    | _ => false

/-- A transport engine holds the descriptor of this operation: its first packet is not built, or payload of
it is being read (R130). -/
def Block.engineHolds (b : Block) (o : Nat × Op) : Bool := !o.2.started || b.readingFor o.1

/-- The pantries of host link `hl` are being uninstalled by a reset of its PF: no fill and no spill starts (R211). -/
def Block.pantryGoes (b : Block) (hl : Nat) : Bool := (b.fn (fidOf hl 0)).flr

/-- Context `k` may be spilled: no transport engine holds a packet or descriptor of it (R130). -/
def Block.ctxLoose (b : Block) (k : Nat) (c : Ctx) : Bool :=
  !c.pinned && !b.pantryGoes (k / 2 ^ 24) && (b.dma.all fun d => d.purpose.context != some k) &&
    b.ops.all fun o => o.2.ctx != k || o.2.kind == .mcast || !b.engineHolds o
/-- Region `k` may be spilled: no non-posted request through it is in flight (R154). -/
def Block.regLoose (b : Block) (k : Nat) : Bool :=
  !b.pantryGoes (k / 2 ^ 24) && b.dma.all fun d => !(d.key == some k)

/-- The pantry entry of context or region `k`: address and length (R128, R154). -/
def Block.pantryEntry (b : Block) (region : Bool) (k : Nat) : Nat × Nat :=
  let l := b.link (k / 2 ^ 24)
  if region then (l.regPantry.base + k % 2 ^ 24 * 32, 32) else (l.ctxPantry.base + k % 2 ^ 24 * 256, 256)

/-- Write an entry to its pantry, under the PF's requester ID (R129): its layout is opaque, so its bytes
are free. -/
def Block.pantryWrite (b : Block) (region : Bool) (k : Nat) : Block :=
  let e := b.pantryEntry region k
  let n := b.fresh
  let hl := k / 2 ^ 24
  { b with fresh := n + 1 }.emit (.hostWrite hl (fidOf hl 0) none false e.1
    ((List.range e.2).map fun i => Config.freeByte (n * 2 ^ 25 + i)))

/-- Ask for an entry from its pantry, under the PF's requester ID (R129). -/
def Block.pantryRead (b : Block) (region : Bool) (k : Nat) : Block :=
  let e := b.pantryEntry region k
  let pf := fidOf (k / 2 ^ 24) 0
  (b.dmaIssue pf none .read e.1 e.2 0 0 none (.fill region k)).emit (.pantryRead (k / 2 ^ 24) pf e.1 e.2)

/-- Reads of a pantry of host link `hl` are in flight (R211). -/
def Block.pantryReading (b : Block) (hl : Nat) (pick : Bool → Bool) : Bool :=
  b.dma.any fun d =>
    match d.purpose with
    | .fill region k => k / 2 ^ 24 == hl && pick region
    | _ => false

/-- Spill a context to its pantry, and count it (R130). -/
def Block.spillCtx (b : Block) (k : Nat) : Block :=
  (((b.modCtx k fun c => { c with spilled := true }).pantryWrite false k).count 530 1).countEvent 17
    (b.ctx k).fid none 1
/-- Spill a region to its pantry, and count it (R154). -/
def Block.spillReg (b : Block) (k : Nat) : Block :=
  ((b.modReg k fun r => { r with spilled := true }).pantryWrite true k).count 532 1

/-- Start to fill a spilled context, where no fill of it runs (R130). -/
def Block.fillCtx (b : Block) (k : Nat) : Block :=
  if (b.ctx k).filling || b.pantryGoes (k / 2 ^ 24) then b
  else (b.modCtx k fun c => { c with filling := true }).pantryRead false k
/-- Start to fill a spilled region, where no fill of it runs (R154). -/
def Block.fillReg (b : Block) (k : Nat) : Block :=
  if (b.reg k).filling || b.pantryGoes (k / 2 ^ 24) then b
  else (b.modReg k fun r => { r with filling := true }).pantryRead true k

/-- Make room in the connection cache for one more entry of host link `hl` (R130, R215). Where none may be
spilled the cache exceeds its size (log 159). -/
def Block.ctxRoom (b : Block) (hl : Nat) : Block :=
  if Tbl.count (fun _ c => c.cached) b.ctxs < b.ctxCacheSize then b
  else
    match spillVictim b.ctxs Ctx.cached b.ctxLoose Ctx.used (fun n => b.quota n 6) hl with
    | some k => b.spillCtx k
    | none => b

/-- Make room in the region-key cache (R154, R215). -/
def Block.regRoom (b : Block) (hl : Nat) : Block :=
  if Tbl.count (fun _ r => r.cached) b.regs < b.regCacheSize then b
  else
    match spillVictim b.regs Reg.cached (fun k _ => b.regLoose k) Reg.used (fun n => b.quota n 8) hl with
    | some k => b.spillReg k
    | none => b

/-- Use a context: true where it is in the cache; a spilled one starts to be filled (R130). -/
def Block.touchCtx (b : Block) (c : Nat) : Bool × Block :=
  let x := b.ctx c
  if x.spilled then (false, b.fillCtx c)
  else (true, b.setCtx c { x with used := b.now })

/-- Use the region a key names, if it names one (R154). -/
def Block.touchKey (b : Block) (hl key : Nat) : Bool × Block :=
  match b.keyCheck hl key with
  | .fail _ => (true, b)
  | .region k r =>
    if r.spilled then (false, b.fillReg k)
    else (true, b.setReg k { r with used := b.now })

/-- Use the local buffer that a key names, for an operation past its checks (R130, R154): the region that
must be filled first, where it is spilled. -/
def Block.touchLocal (b : Block) (hl key : Nat) : Option Nat × Block :=
  match b.keyRegion hl key with
  | none => (none, b)
  | some (k, r) =>
    if r.spilled then (some k, b.fillReg k)
    else (none, b.setReg k { r with used := b.now })

/-! ## The fill stash -/

/-- PSNs of a REQ packet (R132): those of the range a GET_REQ asks for. -/
def getRange (p : Pkt) : Nat :=
  let len := p.at_ 76 4
  min (p.offset / 2 ^ 20 * 2 ^ 20 + 2 ^ 20) len - p.offset

/-- PSNs of a REQ packet. -/
def reqPsns (p : Pkt) : Nat :=
  if p.format = 1 ∧ p.kind = 4 then max 1 ((getRange p + 4095) / 4096) else 1

/-- The PSNs past the window check, `psn` on, have their outcome, or their packet is gone: copies that waited for
them arrive again (R514). -/
def Block.unhand (b : Block) (c : Nat) (psn : BitVec 32) (k : Nat) : Block :=
  let x := b.ctx c
  let mine (p : BitVec 32) : Bool := decide (ahead32 p psn < k)
  { b.setCtx c { x with inHand := x.inHand.filter (fun p => !mine p),
                        stashed := x.stashed.filter (fun p => !mine p),
                        waiting := x.waiting.filter (fun a => !mine a.pkt.psn) } with
    delivery := b.delivery ++ x.waiting.filter (fun a => mine a.pkt.psn) }

/-- The connection of a packet of the fill stash; a packet waits for no region of another host link (R204). -/
def Arrival.owner (a : Arrival) : Option Nat :=
  let c := bits a.pkt.ctxOf 25 0
  match a.awaits with
  | .ctx c => some c
  | .region k => if ctxLink c = k / 2 ^ 24 then some c else none
  | _ => some c

/-- A packet of the fill stash is dropped: one that held its PSNs holds them no more (R514). -/
def Block.letGo (b : Block) (a : Arrival) : Block :=
  match a.owner with
  | some c => if a.holds && (b.ctx c).st == .active then b.unhand c a.pkt.psn (reqPsns a.pkt) else b
  | none => b

/-- Put a packet into the fill stash until what it waits for, or drop it where the 1,024 places are
taken (R131). A packet that waits for a fresh translation takes none of them: it only waits (R204, R322, log 146).
One that waits for more than its context has had its heat noted (R100). -/
def Block.stash (b : Block) (a : Arrival) (w : Awaits) : Block :=
  let noted := a.noted || (match w with
    | .ctx _ => false
    | _ => true)
  if w == .translation || decide ((b.fillStash.filter fun a => !(a.awaits == .translation)).length < 1024) then
    { b with fillStash := b.fillStash ++ [{ a with noted := noted, awaits := w }] }
  else (b.letGo a).count 528 1

/-- A new packet of context `c` waits in the fill stash past its window check: until it has its outcome, or is
dropped, its PSNs are held and further copies wait (R514). -/
def Block.stashNew (b : Block) (a : Arrival) (c : Nat) (w : Awaits) : Block :=
  (b.modCtx c fun x => { x with stashed := x.stashed ++
      (List.range (reqPsns a.pkt)).map fun i => a.pkt.psn + BitVec.ofNat 32 i }).stash
    { a with holds := true } w

/-- Stashed packets that `mine` picks arrive again (R131). -/
def Block.unstash (b : Block) (mine : Arrival → Bool) : Block :=
  { b with delivery := b.delivery ++ (b.fillStash.filter mine).map fun a => { a with awaits := .nothing },
           fillStash := b.fillStash.filter fun a => !mine a }

/-- Drop the stashed packets that `gone` picks (R131, R211). -/
def Block.dropStashed (b : Block) (gone : Arrival → Bool) : Block :=
  (b.fillStash.filter gone).foldl (fun b a => b.letGo a)
    { b with fillStash := b.fillStash.filter fun a => !gone a }

/-- A write of function `fid` at `addr` needs a translation that is being invalidated (R204). -/
def Block.remapping (b : Block) (fid : Nat) (pasid : Option Nat) (addr len : Nat) : Bool :=
  (b.link (fidLink fid)).invWait.any fun w => w.1.meets fid pasid addr len

/-- A write of a packet into region `r` at address `a` waits for a fresh translation (R204). -/
def Block.awaitsMap (b : Block) (r : Reg) (a len : Nat) : Bool := !r.pool && b.remapping r.fid r.pasid (r.dma a) len

/-- What a packet's write into the local buffer of a key waits for: the fill of its region (R154), or a
fresh translation (R204). -/
def Block.landAwaits (b : Block) (hl key a len : Nat) : Option Awaits :=
  match b.keyRegion hl key with
  | none => none
  | some (k, r) =>
    if r.spilled then some (.region k)
    else if b.awaitsMap r a len then some .translation else none

/-- Take up waiting: a region that is to be filled starts to be (R130). -/
def Block.await (b : Block) (w : Awaits) : Block :=
  match w with
  | .region k => b.fillReg k
  | _ => b

end Sys2Proof.Machine
end

