-- ==== Sys2Proof/Machine/Pours.lean ====
section
/-! DEFINITION. Moulds and pours: the image (R271 to R273), slot space (R279 to R281), packets of a
pour (R287), breaks (R292 to R297), landing (R289), gather records (R290) and steps (R286). -/

namespace Sys2Proof.Machine

/-! ## The image -/

/-- `STEP_COUNT` (R271). -/
def Mould.stepCount (m : Mould) : Nat := bits (fld m.image 6 2) 12 0
/-- `PEER_COUNT` (R271). -/
def Mould.peerCount (m : Mould) : Nat := bits (fld m.image 8 2) 12 0
/-- `SLOT_PAGES` (R271). -/
def Mould.slotPages (m : Mould) : Nat := bits (fld m.image 10 2) 13 0
/-- `PARTITION` (R271). -/
def Mould.partition (m : Mould) : Nat := bits (fld m.image 12 1) 3 0
/-- `HOST_LINK` (R271). -/
def Mould.hostLink (m : Mould) : Nat := bits (fld m.image 13 1) 1 0
/-- `BREAK_PVC` (R271). -/
def Mould.breakPvc (m : Mould) : Nat := bits (fld m.image 14 1) 2 0
/-- `ELEMENTS` (R271). -/
def Mould.elements (m : Mould) : Nat := fld m.image 16 4
/-- `SRC_BYTES` (R271). -/
def Mould.srcBytes (m : Mould) : Nat := fld m.image 20 4
/-- `DST_BYTES` (R271). -/
def Mould.dstBytes (m : Mould) : Nat := fld m.image 24 4
/-- `WATCHDOG` (R271). -/
def Mould.watchdogUs (m : Mould) : Nat := fld m.image 28 4

/-- Offset of the steps in an image (R271). -/
def Mould.stepsAt (m : Mould) : Nat := 64 + 16 * ((m.peerCount + 3) / 4)
/-- Length of an image with this header (R271). -/
def Mould.imageLen (m : Mould) : Nat := m.stepsAt + 16 * m.stepCount

/-- Peer table entry `i` (R272). -/
def Mould.peer (m : Mould) (i : Nat) : Nat := fld m.image (64 + 4 * i) 4
/-- Node of a peer table entry. -/
def peerNode (e : Nat) : Nat := bits e 17 0
/-- Path index of a peer table entry. -/
def peerPath (e : Nat) : Nat := bits e 19 18

/-- A step (R273): `SLOT_A` and `SLOT_B` in units of 8 bytes. -/
structure Step where
  sop : Nat
  spvc : Nat
  depA : Nat
  depB : Nat
  arg : Nat
  len : Nat
  slotA : Nat
  slotB : Nat
  deriving DecidableEq, Repr

/-- Step `i` of an image (R273). -/
def Mould.step (m : Mould) (i : Nat) : Step :=
  let o := m.stepsAt + 16 * i
  { sop := bits (fld m.image o 1) 3 0, spvc := bits (fld m.image o 1) 6 4,
    depA := bits (fld m.image (o + 1) 3) 11 0, depB := bits (fld m.image (o + 1) 3) 23 12,
    arg := fld m.image (o + 4) 2, len := bits (fld m.image (o + 6) 4) 25 0,
    slotA := bits (fld m.image (o + 10) 3) 21 0, slotB := bits (fld m.image (o + 13) 3) 21 0 }

/-- All steps of an image. -/
def Mould.steps (m : Mould) : List Step := (List.range m.stepCount).map m.step

/-- `SOP` values (R274). -/
def sopNop : Nat := 0
def sopCopyIn : Nat := 1
def sopCopyOut : Nat := 2
def sopSend : Nat := 3
def sopRecv : Nat := 4
def sopCombine : Nat := 5
def sopGather : Nat := 6
def sopMcast : Nat := 7

/-- Byte address of slot A. -/
def Step.addrA (t : Step) : Nat := 8 * t.slotA
/-- Byte address of slot B, or host offset. -/
def Step.addrB (t : Step) : Nat := 8 * t.slotB
/-- Tree of a GATHER or MCAST step. -/
def Step.tree (t : Step) : Nat := bits t.slotB 11 0
/-- The step names a tree. -/
def Step.onTree (t : Step) : Bool := t.sop == sopGather || t.sop == sopMcast

/-- The trees a mould names. -/
def Mould.trees (m : Mould) : List Nat := ((m.steps.filter Step.onTree).map Step.tree).eraseDups

/-- The sprue entry of a tree. -/
def Block.sprueOf (b : Block) (tree : Nat) : Nat := Tbl.get 0 b.sprue tree

/-- This node is the root of the step's tree (R274). -/
def Block.stepRoot (b : Block) (t : Step) : Bool := sprueRoot (b.sprueOf t.tree)

/-- The step has a landing range at this node (R277 check 11). -/
def Block.landing (b : Block) (t : Step) : Bool :=
  t.sop == sopRecv || (t.sop == sopMcast && !b.stepRoot t)

/-- The early reservation of a mould in pages (R280). -/
def Block.earlyPages (b : Block) (m : Mould) : Nat :=
  (m.steps.filter b.landing).foldl (fun n t => n + max 1 ((t.len + 4095) / 4096)) 0

/-! ## Slot space -/

/-- Key of a slot byte. -/
def slotKey (i a : Nat) : Nat := i * 2 ^ 25 + a

/-- A byte of slot space (R279, R295): zero where nothing is written since the pages were zeroed, a
free value where nothing is written since a pour broke. -/
def Block.slotByte (b : Block) (i a : Nat) : Byte :=
  match Tbl.get none b.slots (slotKey i a) with
  | some v => v
  | none =>
    match (b.mould i).undef with
    | some n => Config.freeByte (n * 2 ^ 25 + a)
    | none => 0

/-- `n` bytes of slot space. -/
def Block.slotRead (b : Block) (i a n : Nat) : Bytes := (List.range n).map fun k => b.slotByte i (a + k)

/-- Put bytes into slot space. -/
def Block.slotBytes (b : Block) (i a : Nat) : Bytes → Block
  | [] => b
  | v :: t =>
    ({ b with slots := Tbl.set none b.slots (slotKey i a) (some v) } : Block).slotBytes i (a + 1) t

/-- Write bytes of slot space: a poisoned word that they cover is written again (R398). -/
def Block.slotWrite (b : Block) (i a : Nat) (bs : Bytes) : Block :=
  { b.slotBytes i a bs with badSlots := b.badSlots.filter fun w =>
      !(decide (slotKey i a ≤ 8 * w) && decide (8 * w + 8 ≤ slotKey i a + bs.length)) }

/-- The range of `n` bytes at slot address `a` meets a poisoned word (R399). -/
def Block.slotBad (b : Block) (i a n : Nat) : Bool :=
  b.badSlots.any fun w => overlaps (slotKey i a) n (8 * w) 8

/-- The slot space of an index holds nothing written (R279). -/
def Block.slotClear (b : Block) (i : Nat) : Block :=
  { b with slots := Tbl.drop (fun k => k / 2 ^ 25 == i) b.slots }

/-- The pages of a mould are zeroed as it reserves them (R279): no word of them stands poisoned. -/
def Block.slotZero (b : Block) (i : Nat) : Block :=
  { b.slotClear i with badSlots := b.badSlots.filter fun w => !(w / 2 ^ 22 == i) }

/-! ## Pours -/

/-- The armed pour of an index. -/
def Mould.armed (m : Mould) : Option Pour := m.pours.find? (·.armed)

/-- `POUR_SEQ` of the next pour (R289). -/
def Mould.nextPour (m : Mould) : BitVec 32 :=
  match m.pours.find? fun p => !p.armed with
  | some p => p.seq
  | none => m.nextSeq

/-- Change the armed pour of index `i`. -/
def Block.modArmed (b : Block) (i : Nat) (f : Pour → Pour) : Block :=
  b.modMould i fun m => { m with pours := m.pours.map fun p => if p.armed then f p else p }

/-- Armed pours that `pick` picks. -/
def Block.armedCount (b : Block) (pick : Pour → Bool) : Nat :=
  b.moulds.foldl (fun n e => n + (e.2.pours.filter fun p => p.armed && pick p).length) 0

/-- `POUR_SHARE` of a host link (R298). -/
def Block.pourShare (b : Block) (n : Nat) : Nat :=
  let v := b.obj (0x6810 + n) 1
  if v = auto8 then laneShare 64 (linkWidth b.bifCode n) else v

/-- Pages left for slot spaces (R279). -/
def Block.slotTotal (b : Block) : Nat :=
  b.carveOf 3 / 4 - b.obj 0x6800 1 - b.obj 0x6800 2

/-- `SLOT_SHARE` of a host link (R298). -/
def Block.slotShare (b : Block) (n : Nat) : Nat :=
  let v := b.obj (0x6810 + n) 2
  if v = auto16 then laneShare b.slotTotal (linkWidth b.bifCode n) else v

/-! ## Packets of a pour -/

/-- The mould block (R50). -/
def mouldBlock (i step : Nat) (seq : BitVec 32) (addr combine child : Nat) : Bytes :=
  toLe 2 i ++ toLe 2 step ++ toLe 4 seq.toNat ++ toLe 2 (addr / 4096) ++ toLe 2 (addr % 4096) ++
    toLe 2 combine ++ toLe 1 child

/-- `MOULD_INDEX` of MOULD_DATA. -/
def Pkt.mouldIdx (p : Pkt) : Nat := bits (p.at_ 64 2) 9 0
/-- `STEP` of MOULD_DATA. -/
def Pkt.mouldStep (p : Pkt) : Nat := bits (p.at_ 66 2) 11 0
/-- `POUR_SEQ` of MOULD_DATA. -/
def Pkt.pourSeq (p : Pkt) : BitVec 32 := BitVec.ofNat 32 (p.at_ 68 4)
/-- The slot address of MOULD_DATA's first byte. -/
def Pkt.slotAddr (p : Pkt) : Nat := bits (p.at_ 72 2) 12 0 * 4096 + bits (p.at_ 74 2) 11 0
/-- `COMBINE` of MOULD_DATA. -/
def Pkt.combine (p : Pkt) : Nat := p.at_ 76 2

/-- The packet is MOULD_DATA. -/
def Pkt.isMould (p : Pkt) : Bool := p.format == 1 && p.kind == 9
/-- The packet is MOULD_CTRL. -/
def Pkt.isCtrl (p : Pkt) : Bool := p.format == 0 && p.kind == 6

/-- A MOULD_DATA packet without its route (R287), for the path of index `path` (R37). Its `OFFSET`, to which the
rules give no value, is 0 (log 174). -/
def Block.mouldPkt (b : Block) (part pvc node : Nat) (block payload : Bytes) (path : Nat := 0) : Pkt :=
  let h : DataHdr :=
    { kind := 9, priv := true, pvc := pvc, part := part, dst := mkFa node 0,
      src := mkFa b.nodeId 0, path := path }
  dataPkt h block payload

/-- The route of a privileged unicast packet: the path's ports with `LAYER` 0 (R56, R287). -/
def Path.privRoute (p : Path) : Path := { p with hops := p.hops.map (· &&& 0xF3#8) }

/-- The packets of a sending step (R287): `place` puts each one, built for its offset. -/
def pourCuts (len : Nat) : List (Nat × Nat) :=
  if len = 0 then [(0, 0)]
  else (List.range ((len + 4095) / 4096)).map fun k => (4096 * k, min 4096 (len - 4096 * k))

/-- Packet of step `t`, number `k`, at offset `off`, its receiver's address being `base + off`, on the path of
index `path` (R37, R287). -/
def Block.stepPkt (b : Block) (i : Nat) (p : Pour) (k : Nat) (t : Step) (node base off n : Nat)
    (path : Nat := 0) : Pkt :=
  b.mouldPkt (b.mould i).partition t.spvc node
    (mouldBlock i k p.seq (base + off) (if t.sop = sopGather then t.arg else 0) 0)
    (b.slotRead i (t.addrA + off) n) path

/-- A packet that this node sent for step `k` of a pour. -/
def ownOf (i : Nat) (seq : BitVec 32) (k : Option Nat) (p : Pkt) : Bool :=
  p.isMould && p.mouldIdx == i && p.pourSeq == seq &&
  (match k with
    | some k => p.mouldStep == k
    | none => true)

/-- Packets of a step are still to leave this node (R274). -/
def Block.stillOwn (b : Block) (i : Nat) (seq : BitVec 32) (k : Nat) : Bool :=
  b.injQ.any (fun e => e.2.any (ownOf i seq (some k))) ||
  b.copying.any (fun e => e.2.any fun c => c.src.row == 16 && ownOf i seq (some k) c.pkt) ||
  b.madeQ.any (fun e => e.2.any fun x => ownOf i seq (some k) x.1) ||
  b.outQ.any (fun e => e.2.any fun x => x.src.row == 16 && ownOf i seq (some k) x.pkt) ||
  b.ports.any (fun e =>
    match e.2.opened with
    | some (_, x) => x.row == 16 && ownOf i seq (some k) x.pkt
    | none => false)

/-- A pour's packets that have not left are dropped (R295). -/
def Block.dropOwn (b : Block) (i : Nat) (seq : BitVec 32) : Block :=
  { b with injQ := Tbl.map [] (fun _ l => l.filter fun p => !ownOf i seq none p) b.injQ,
           copying := Tbl.map none (fun _ (o : Option Copying) => o.filter fun (c : Copying) => !(c.src.row == 16 && ownOf i seq none c.pkt))
             b.copying,
           madeQ := Tbl.map [] (fun _ l => l.filter fun x => !ownOf i seq none x.1) b.madeQ,
           outQ := Tbl.map [] (fun _ l => l.filter fun x => !(x.src.row == 16 && ownOf i seq none x.pkt))
             b.outQ }

/-! ## Breaks -/

/-- A BREAK packet without its route (R44, R294). -/
def Block.breakPkt (b : Block) (pvc part node i : Nat) (seq : BitVec 32) (x : BreakInfo)
    (flood : Bool) : Pkt :=
  ctlPkt 6 0 true pvc part (mkFa node 0) (mkFa b.nodeId 0) seq.toNat
    (toLe 2 i ++ toLe 1 1 ++ toLe 1 x.cause ++ toLe 4 x.origin ++ toLe 2 x.step ++
      toLe 1 x.detail ++ toLe 1 (b2n flood))

/-- Spread a break from a participant (R294 step 1). -/
def Block.spreadBreak (b : Block) (i : Nat) (seq : BitVec 32) (x : BreakInfo) : Block :=
  let m := b.mould i
  let b := (List.range m.peerCount).foldl (fun b k =>
    let e := m.peer k
    let path := pathOf (b.bookOf (peerNode e)) (peerPath e)
    if peerNode e = b.nodeId ∨ !path.valid then b
    else b.inject ((b.breakPkt m.breakPvc m.partition (peerNode e) i seq x false).withRoute
      path.privRoute)) b
  m.trees.foldl (fun b t =>
    b.inject ((b.breakPkt m.breakPvc m.partition 0 i seq x true).onTree 1 t)) b

/-- A break of pour `seq` of index `i` has been met here lately: for as long as `POUR_WATCHDOG` lets a
participant run that no BREAK has reached (R295, R296, log 141). -/
def Block.brokenLately (b : Block) (i : Nat) (seq : BitVec 32) : Bool :=
  b.freed.any fun x => x.mould == i && x.seq == seq && decide (b.now ≤ x.at_ + b.obj 0x6800 3 * 1000)

/-- Note that a break of pour `seq` of index `i` has been met here (log 141). -/
def Block.noteBroken (b : Block) (i : Nat) (seq : BitVec 32) : Block :=
  let old := b.freed.filter fun x =>
    !(x.mould == i && x.seq == seq) && decide (b.now ≤ x.at_ + b.obj 0x6800 3 * 1000)
  { b with freed := ⟨i, seq, b.now⟩ :: old }

/-- A break of a pour has come about here: its gather records are freed (R294 step 3), whether or not one is
open yet, and what still comes for them is stale (R302). -/
def Block.freeGathers (b : Block) (i : Nat) (seq : BitVec 32) : Block :=
  ({ b with gathers := b.gathers.filter fun g => !(g.mould == i && g.seq == seq) } : Block).noteBroken i seq

/-- The pours of index `i` are numbered afresh (R276): its broken ones are forgotten (log 141). -/
def Block.forgetBroken (b : Block) (i : Nat) : Block :=
  { b with freed := b.freed.filter fun x => !(x.mould == i) }

/-- A gather packet of pour `seq` has come for index `i`: where the numbers have begun again, as those of a
mould loaded anew do (R276, R284), the pours broken before are forgotten (log 141). -/
def Block.seqsRestart (b : Block) (i : Nat) (seq : BitVec 32) : Block :=
  { b with freed := b.freed.filter fun x =>
      !(x.mould == i && decide (2 ≤ (x.seq - seq).toNat) && decide ((x.seq - seq).toNat < 2 ^ 31)) }

/-- `POUR_RESULT` (R292). -/
def pourResult (x : Option BreakInfo) (stepsDone ns : Nat) : Bytes :=
  (match x with
    | some x => toLe 4 (x.origin + 2 ^ 31) ++ toLe 2 x.step ++ toLe 1 x.cause ++ toLe 1 x.detail
    | none => zeros 8) ++ toLe 4 stepsDone ++ toLe 4 (min ns (2 ^ 32 - 1))

/-- The `POUR_NS` of a pour; 0 for one never armed. -/
def Block.pourNs (b : Block) (p : Pour) : Nat := if p.armed then b.now - p.armedAt else 0

/-- The trace record of a step sample (R419). -/
def sampleRecord (rseq base : Nat) (p : Pour) (i k sop started done_ now : Nat) (synced : Bool) :
    Bytes :=
  toLe 4 rseq ++ toLe 2 p.q ++ toLe 2 p.idx ++ toLe 1 7 ++ zeros 1 ++
    toLe 1 (8 + b2n (!synced) * 4) ++ zeros 1 ++ toLe 4 i ++ toLe 8 (base + 64 * p.idx) ++
    toLe 8 p.armedTime ++ toLe 8 started ++ toLe 8 done_ ++ toLe 8 now ++ toLe 4 p.seq.toNat ++
    toLe 2 k ++ toLe 1 sop ++ zeros 1

/-- Write a step sample, send its vector after the record and reload the down-counter (R419). -/
def Block.sample (b : Block) (i : Nat) (p : Pour) (k started done_ : Nat) : Block :=
  let sop := ((b.mould i).step k).sop
  let base := (b.queue p.q).base
  let now := b.ftime
  let (ok, b) := b.traceWrite p.fid p.home fun r =>
    sampleRecord r base p i k sop started done_ now b.time.synced
  let t := (b.fn p.fid).trace
  let b := b.modFn p.fid fun f =>
    { f with trace := { f.trace with stepPending := none, stepCount := f.trace.stepPeriod } }
  if ok && t.vectorEn then b.msix p.fid t.vector else b

/-- A pour that ends with a sample pending records its last step (R419). -/
def Block.sampleLast (b : Block) (i : Nat) (p : Pour) : Block :=
  if (b.fn p.fid).trace.stepPending = some i ∧ 0 < p.next then
    let k := p.next - 1
    match p.doneSteps.find? fun d => d.1 == k with
    | some (_, st, dn) => b.sample i p k st dn
    | none =>
      match p.running.find? fun r => r.step == k with
      | some r => b.sample i p k r.startedAt 0
      | none => b
  else b

/-- A mould that has lost a page is unloaded once it has no pour left (R399). -/
def Block.unloadDoomed (b : Block) (i : Nat) : Block :=
  let m := b.mould i
  if m.doomed && m.pours.isEmpty then (b.slotClear i).setMould i {} else b

/-- The mould once its pour `seq` has ended: a BREAK recorded for that pour is done with. -/
def Mould.ended (m : Mould) (seq : BitVec 32) : Mould :=
  { m with pours := m.pours.filter fun r => !(r.seq == seq),
           broken := if m.brokenSeq = seq then none else m.broken }

/-- Complete a pour's descriptor and take it off its index (R292). -/
def Block.finishPour (b : Block) (i : Nat) (p : Pour) (status : Nat) (x : Option BreakInfo) : Block :=
  let b := b.sampleLast i p
  let b := b.modMould i fun m => m.ended p.seq
  let b := b.unloadDoomed i
  let last := p.doneSteps.foldl (fun n d => max n d.2.2) 0
  let trace := p.trace.map fun t =>
    if p.doneSteps.isEmpty then t else { t with acked := some last }
  b.complete p.q p.idx p.desc status (pourResult x p.doneSteps.length (b.pourNs p)) trace

/-- Count a break of a pour: by its cause where that is one of R293 (R406, R410). -/
def Block.countBreak (b : Block) (cause : Nat) : Block :=
  let b := b.count 818 1
  if 1 ≤ cause ∧ cause ≤ 10 then b.count (821 + cause) 1 else b

/-- A pour breaks (R292 to R297): its packets and records go, its slots are undefined if it was
armed, its descriptor completes, its function is told, and the break is spread. -/
def Block.breakPour (b : Block) (i : Nat) (p : Pour) (x : BreakInfo) : Block :=
  let b := (b.dropOwn i p.seq).freeGathers i p.seq
  let b := b.modMould i fun m => { m with held := m.held.filter fun k => !(k.pourSeq == p.seq) }
  let b := if p.armed then
      let n := b.fresh
      { (b.slotClear i).modMould i fun m => { m with undef := some n } with fresh := n + 1 }
    else b
  let b := (b.countBreak x.cause).countEvent 12 p.fid none 1
  let b := b.spreadBreak i p.seq x
  let b := b.finishPour i p stMouldBreak (some x)
  b.event p.fid 10 (toLe 2 i ++ zeros 2 ++ toLe 4 p.seq.toNat ++ toLe 1 x.cause)

/-- The step of a pour that was running (R292). -/
def Pour.runningStep (p : Pour) : Nat :=
  match p.running with
  | r :: t => t.foldl (fun n q => min n q.step) r.step
  | [] => 0

/-- A break begins at this node (R292, R293). -/
def Block.breakHere (b : Block) (i : Nat) (p : Pour) (cause detail : Nat) : Block :=
  b.breakPour i p { cause := cause, origin := b.nodeId, step := p.runningStep, detail := detail }

/-- Break the armed pour of an index, if it has one. -/
def Block.breakArmed (b : Block) (i cause detail : Nat) : Block :=
  match (b.mould i).armed with
  | some p => b.breakHere i p cause detail
  | none => b

/-- A break for the next pour is recorded, once, and spread (R294). -/
def Block.recordBreak (b : Block) (i : Nat) (seq : BitVec 32) (x : BreakInfo) : Block :=
  let m := b.mould i
  if m.broken.isSome then b
  else
    let b := b.setMould i
      { m with broken := some x, brokenSeq := seq, held := m.held.filter fun k => !(k.pourSeq == seq) }
    (b.freeGathers i seq).spreadBreak i seq x

/-- Break the pour that MOULD_DATA packet `p` belongs to, at this node, with `cause` (R117, R290,
R294): the armed pour, the next pour, one that has ended here and may run elsewhere, whose break begins here
and is spread, or, at a router that takes part in no pour of the mould, by a break of its own. A pour whose
break has been met here has been told of already. `BREAK_STEP` is the step running or sending here, or 0
(R292). A router that holds no valid mould of the index knows no `BREAK_PVC`, and sends on the packet's own
privileged VC (log 143). -/
def Block.breakFor (b : Block) (p : Pkt) (cause : Nat) : Block :=
  let i := p.mouldIdx
  let m := b.mould i
  let x : BreakInfo := { cause := cause, origin := b.nodeId, step := 0, detail := 0 }
  let v := if m.st = .valid then m.breakPvc else p.pvc
  let mine := match m.armed with
    | some q => if q.seq = p.pourSeq then some q else none
    | none => none
  match mine with
  | some q =>
    let sends := faNode p.srcFa == b.nodeId && q.running.any fun r => r.step == p.mouldStep
    if m.st = .valid then
      b.breakPour i q { x with step := if sends then p.mouldStep else q.runningStep }
    else b
  | none =>
    if m.st = .valid ∧ p.pourSeq = m.nextPour then b.recordBreak i p.pourSeq x
    else if b.brokenLately i p.pourSeq then b
    else if m.st = .valid then (b.noteBroken i p.pourSeq).spreadBreak i p.pourSeq x
    else if p.mode = 0 then
      let node := faNode p.srcFa
      match ((List.range 4).map (pathOf (b.bookOf node))).find? Path.valid with
      | some path =>
        b.inject ((b.breakPkt v p.partition node i p.pourSeq x false).withRoute path.privRoute)
      | none => b
    else b.inject ((b.breakPkt v p.partition 0 i p.pourSeq x true).onTree 1 p.tree)

/-- A BREAK that reaches this node (R294 step 4). -/
def Block.takeBreak (b : Block) (p : Pkt) : Block :=
  let i := bits (p.at_ 48 2) 9 0
  let seq := p.psn
  let x : BreakInfo :=
    { cause := p.at_ 51 1, origin := bits (p.at_ 52 4) 17 0, step := bits (p.at_ 56 2) 11 0,
      detail := p.at_ 58 1 }
  let m := b.mould i
  if m.st ≠ .valid then b
  else
    match m.armed with
    | some q =>
      if q.seq = seq then b.breakPour i q x
      else if m.nextPour = seq then b.recordBreak i seq x
      else b
    | none => if m.nextPour = seq then b.recordBreak i seq x else b

/-- Send a flood BREAK on from this router by its sprue entry `w` (R26, R294 step 3). -/
def Block.floodOn (b : Block) (row w : Nat) (p : Pkt) : Block :=
  let up := if sprueRoot w then [] else [sprueParent w]
  b.make (p.vcOn 0) p ((up ++ bitList 16 (sprueOut w)).eraseDups.filter fun q => !(q == row))

/-! ## Landing -/

/-- The armed pour has met all bytes of step `k` of length `len` (R274, R289). -/
def Pour.credited (p : Pour) (k len : Nat) : Bool :=
  if len = 0 then p.zeroSeen.contains k else decide (len ≤ Tbl.get 0 p.credit k)

/-- Credit `n` bytes to step `k`. -/
def Pour.addCredit (p : Pour) (k n : Nat) : Pour :=
  if n = 0 then { p with zeroSeen := if k ∈ p.zeroSeen then p.zeroSeen else p.zeroSeen ++ [k] }
  else { p with credit := Tbl.set 0 p.credit k (Tbl.get 0 p.credit k + n) }

/-- The landing step of a packet of `n` bytes at slot address `a` (R289). -/
def Block.landingStep (b : Block) (m : Mould) (a n : Nat) : Option Nat :=
  (List.range m.stepCount).find? fun k =>
    let t := m.step k
    b.landing t &&
    (if n = 0 then t.addrA == a
     else decide (t.addrA ≤ a) && decide (a < t.addrA + t.len))

/-- A packet of `n` bytes has landed at slot address `a`. -/
def Pour.addLanded (p : Pour) (a n : Nat) : Pour :=
  if n = 0 then p else { p with landed := p.landed ++ [(a, n)] }

/-- Land a packet in the armed pour of index `i` (R289). Bytes written twice leave the slot, the
landing range, undefined (R332). -/
def Block.land (b : Block) (i : Nat) (p : Pkt) : Block :=
  let m := b.mould i
  let a := p.slotAddr
  let n := p.plen
  match b.landingStep m a n with
  | none => b.breakArmed i 6 0
  | some k =>
    let t := m.step k
    if t.addrA + t.len < a + n then b.breakArmed i 6 0
    else
      let twice := match m.armed with
        | some q => q.landed.any fun r => overlaps r.1 r.2 a n
        | none => false
      if twice then
        let bs := (List.range t.len).map fun j => Config.freeByte (b.fresh * 2 ^ 25 + t.addrA + j)
        let b := { b with fresh := b.fresh + 1 }
        (b.slotWrite i t.addrA bs).modArmed i fun q => (q.addCredit k n).addLanded t.addrA t.len
      else
        (b.slotWrite i a p.payload).modArmed i fun q => (q.addCredit k n).addLanded a n

/-- A packet of the next pour meets no landing range (R289): the pour breaks with STRAY as it is armed. -/
def Block.strays (b : Block) (m : Mould) (p : Pkt) : Bool := (b.landingStep m p.slotAddr p.plen).isNone

/-- Hold a packet for the next pour (R280, R289). The pages of the landing ranges are the early reservation,
so a packet that meets a range finds its page; of those that meet none, one is held to break the pour. -/
def Block.holdEarly (b : Block) (i : Nat) (p : Pkt) : Block :=
  let m := b.mould i
  if b.strays m p && m.held.any (b.strays m) then b.count 819 1
  else b.setMould i { m with held := m.held ++ [p] }

/-- A delivered MOULD_DATA that is no gather packet (R289, R291); `w` is its sprue entry. -/
def Block.landData (b : Block) (w : Nat) (p : Pkt) : Block :=
  let i := p.mouldIdx
  let m := b.mould i
  if p.mode = 1 ∧ sprueRoot w then b
  else if m.st ≠ .valid then b.count 819 1
  else if !(b.member p.partition (faNode p.srcFa) && b.member p.partition b.nodeId) then
    (match m.armed with
      | some q => if q.seq = p.pourSeq then b.breakHere i q 1 stFenced
          else if m.nextPour = p.pourSeq then
            b.recordBreak i p.pourSeq ⟨1, b.nodeId, 0, stFenced⟩
          else b.count 819 1
      | none => if m.nextPour = p.pourSeq then
            b.recordBreak i p.pourSeq ⟨1, b.nodeId, 0, stFenced⟩
          else b.count 819 1)
  else
    match m.armed with
    | some q =>
      if q.seq = p.pourSeq then b.land i p
      else if m.nextPour = p.pourSeq ∧ m.broken.isNone then b.holdEarly i p
      else b.count 819 1
    | none => if m.nextPour = p.pourSeq ∧ m.broken.isNone then b.holdEarly i p else b.count 819 1

/-! ## Gather records -/

/-- The packet belongs to the record (R281). -/
def GatherRec.holds (g : GatherRec) (p : Pkt) : Bool :=
  g.mould == p.mouldIdx && g.seq == p.pourSeq && g.step == p.mouldStep && g.page == p.slotAddr / 4096 &&
    g.off == p.slotAddr % 4096

/-- The record of a gather packet exists, or a page is free for it (R281). -/
def Block.gatherRoom (b : Block) (p : Pkt) : Bool :=
  b.gathers.any (·.holds p) || decide (b.gathers.length < b.obj 0x6800 2)

/-- A gather packet is stale (R289, R302): it is of a pour that is neither the armed nor the next one of a
mould held here, or, at a router that holds none, of a pour whose break has been met here (log 141). -/
def Block.gatherStale (b : Block) (p : Pkt) : Bool :=
  let m := b.mould p.mouldIdx
  let armed := match m.armed with
    | some q => q.seq == p.pourSeq
    | none => false
  if m.st = .valid then !armed && !(m.nextPour == p.pourSeq && m.broken.isNone)
  else b.brokenLately p.mouldIdx p.pourSeq

/-- The position of a contribution (R290 step 1); none from a port that is no child. -/
def gatherPos (w row : Nat) : Option Nat :=
  let ports := bitList 16 (sprueOut w)
  if row = 16 then (if sprueLocal w then some 0 else none)
  else if ports.contains row then some (ports.idxOf row + b2n (sprueLocal w)) else none

/-- Find or open the record of a gather packet (R290 step 2). -/
def Block.openGather (b : Block) (p : Pkt) : Block :=
  if b.gathers.any (·.holds p) then b
  else
    let g : GatherRec :=
      { mould := p.mouldIdx, seq := p.pourSeq, step := p.mouldStep, page := p.slotAddr / 4096,
        off := p.slotAddr % 4096, combine := p.combine, plen := p.plen, tree := p.tree, pvc := p.pvc,
        partition := p.partition }
    ({ b with gathers := b.gathers ++ [g] } : Block).seqsRestart g.mould g.seq

/-- Count what a combine met (R305, R309). -/
def Block.countCru (b : Block) (n : CruCount) : Block :=
  (((b.count 784 n.invalid).count 785 n.overflow).count 786 n.nan).count 787 n.badBin

/-- Contributions in position order. -/
def inOrder (l : List (Nat × Bytes)) : List Bytes :=
  (List.range 17).filterMap fun k => lookup k l

/-- A record is whole: combine, and write or send the result (R290 steps 4 and 5, R302). -/
def Block.closeGather (b : Block) (g : GatherRec) (w : Nat) : Block :=
  let b := { b with gathers := b.gathers.filter fun r => !(r == g) }
  let (res, n) := if g.plen = 0 then ([], {}) else combineAll g.combine (inOrder g.parts)
  let b := b.countCru n
  let m := b.mould g.mould
  let mine := m.st == .valid && (match m.armed with
    | some q => q.seq == g.seq
    | none => false)
  let credit (b : Block) : Block :=
    if mine then b.modArmed g.mould fun q => q.addCredit g.step g.plen else b
  let a := g.page * 4096 + g.off
  if sprueRoot w then
    if mine then credit (b.slotWrite g.mould a res) else b.count 819 1
  else
    let p := (b.mouldPkt g.partition g.pvc 0 (mouldBlock g.mould g.step g.seq a g.combine 0) res
      ).onTree 2 g.tree
    credit (b.make (p.vcOn 0) p [sprueParent w])

/-- A gather packet that has its record (R289, R290, R302); `w` is its sprue entry (R26). -/
def Block.gatherData (b : Block) (row w : Nat) (p : Pkt) : Block :=
  if b.gatherStale p then b.count 819 1
  else if !(b.member p.partition (faNode p.srcFa) && b.member p.partition b.nodeId) &&
      (b.mould p.mouldIdx).st == .valid then b.breakFor p 1
  else
  match gatherPos w row, b.gathers.find? (·.holds p) with
  | some k, some g =>
    if g.combine ≠ p.combine ∨ g.plen ≠ p.plen then b.breakFor p 7
    else
      let g' : GatherRec :=
        { g with parts := if (lookup k g.parts).isSome then g.parts else g.parts ++ [(k, p.payload)],
                 pvc := if row = 16 ∧ !g.parts.isEmpty then g.pvc else p.pvc }
      let b := { b with gathers := b.gathers.map fun r => if r = g then g' else r }
      if sprueChildren w ≤ g'.parts.length then b.closeGather g' w else b
  | none, _ => b.breakFor p 7
  | _, none => b.count 819 1

/-! ## Steps -/

/-- Step `k` of the armed pour may start (R286). -/
def Pour.mayStart (p : Pour) (t : Step) : Bool :=
  let has (d : Nat) : Bool := d == 0 || p.doneSteps.any fun x => x.1 == p.next - d
  decide (p.running.length < 16) && has t.depA && has t.depB

/-- The slot ranges that step `t` reads as it starts, as address and length (R274, R303). -/
def Block.slotReads (b : Block) (t : Step) : List (Nat × Nat) :=
  if t.sop = sopCopyOut ∨ t.sop = sopSend ∨ t.sop = sopGather ∨ (t.sop = sopMcast ∧ b.stepRoot t) then
    [(t.addrA, t.len)]
  else if t.sop = sopCombine then
    let k := if cType t.arg = 9 then 4 else 8
    if cOp t.arg = 8 then [(t.addrB, t.len / k)]
    else if cOp t.arg = 9 then [(t.addrB, t.len)]
    else [(t.addrA, t.len), (t.addrB, t.len)]
  else []

/-- Step `t` of index `i` would read a poisoned word: it does not start, and its pour ends by its watchdog, unless
the word is written again before (R398, R399). -/
def Block.readsBad (b : Block) (i : Nat) (t : Step) : Bool :=
  (b.slotReads t).any fun r => b.slotBad i r.1 r.2

/-- The armed pour of index `i` starts its next step where that is of kind `sop` and may start; `f`
is the step's own start. -/
def Block.startStep (b : Block) (i sop : Nat) (f : Block → Pour → Nat → Step → Block) : Block :=
  let m := b.mould i
  match m.armed with
  | none => b
  | some p =>
    let k := p.next
    let t := m.step k
    if b.live && decide (k < m.stepCount) && t.sop == sop && p.mayStart t && !m.badSteps.contains k &&
        !b.readsBad i t then
      let now := b.ftime
      let b := b.modArmed i fun p =>
        { p with next := k + 1, running := p.running ++ [⟨k, false, now⟩] }
      let b := if (b.fn p.fid).trace.stepPending = some i then b.sample i p k now 0 else b
      match (b.mould i).armed with
      | some p => f b p k t
      | none => b
    else b

/-- The work of step `k` is done. -/
def Block.markDone (b : Block) (i k : Nat) : Block :=
  b.modArmed i fun p =>
    { p with running := p.running.map fun r => if r.step = k then { r with done := true } else r }

/-- What completes step `k` has come about (R274). -/
def Block.stepReady (b : Block) (i : Nat) (p : Pour) (r : StepRun) : Bool :=
  let t := (b.mould i).step r.step
  if t.sop = sopSend then !b.stillOwn i p.seq r.step
  else if b.landing t then p.credited r.step t.len
  else if t.sop = sopMcast then !b.stillOwn i p.seq r.step
  else if t.sop = sopGather then p.credited r.step t.len && !b.stillOwn i p.seq r.step
  else r.done

/-- The sample of a completed step (R419): the down-counter, and at zero the trigger. -/
def Block.stepCounted (b : Block) (i : Nat) (p : Pour) (r : StepRun) (more : Bool) : Block :=
  let t := (b.fn p.fid).trace
  if !t.stepOn || t.stepPending.isSome then b
  else
    let n := t.stepCount - 1
    let b := b.modFn p.fid fun f => { f with trace := { f.trace with stepCount := n } }
    if n ≠ 0 then b
    else if more then b.modFn p.fid fun f => { f with trace := { f.trace with stepPending := some i } }
    else
      match p.running with
      | q :: _ => b.sample i p q.step q.startedAt 0
      | [] => b.sample i p r.step r.startedAt b.ftime

/-- A step completes (R286, R292, R296). -/
def Block.stepDone (b : Block) (i : Nat) (r : StepRun) : Block :=
  let now := b.ftime
  let b := b.modArmed i fun p =>
    { p with running := p.running.filter fun q => !(q.step == r.step),
             doneSteps := p.doneSteps ++ [(r.step, r.startedAt, now)], lastDoneAt := b.now }
  let m := b.mould i
  match m.armed with
  | none => b
  | some p =>
    let b := (b.count 820 1).countEvent 13 p.fid (some p.q) 1
    let b := b.stepCounted i p r (decide (p.next < m.stepCount))
    if p.next = m.stepCount ∧ p.running = [] then
      ((b.count 817 1).countEvent 11 p.fid (some p.q) 1).finishPour i p stOk none
    else b

/-! ## Arming -/

/-- The mould engines of the live regions that are in service (R22, R401). -/
def Block.engines (b : Block) : List Nat := b.liveRegions.flatMap b.liveEngines

/-- The engine runs fewer than its four pours (R286). -/
def Block.engineFree (b : Block) (n : Nat) : Bool := decide (b.armedCount (fun p => p.engine == n) < 4)

/-- The engine that a pour of home `home` is to run on (R286): one of its home region, or, with none free
there, one of a region that has one, to which the home moves (log 142). -/
def Block.pourEngine (b : Block) (home : Nat) : Nat × Block :=
  let free := b.engines.filter b.engineFree
  let own := free.filter fun n => n / 4 == home
  let l := if own.isEmpty then free else own
  let (k, b) := b.choose l.length
  (nth 0 l k, b)

/-- Arm the next pour of index `i`, where its turn has come and the limits allow it (R285, R22): four pours
for each engine in service. -/
def Block.armPour (b : Block) (i : Nat) : Block :=
  let m := b.mould i
  match m.pours with
  | [] => b
  | p :: _ =>
    if m.st ≠ .valid ∨ p.armed then b
    else
      match (if m.brokenSeq = p.seq then m.broken else none) with
      | some x =>
        let b := (b.countBreak x.cause).countEvent 12 p.fid none 1
        let b := b.finishPour i p stMouldBreak (some x)
        b.event p.fid 10 (toLe 2 i ++ zeros 2 ++ toLe 4 p.seq.toNat ++ toLe 1 x.cause)
      | none =>
        if !b.engines.any b.engineFree ∨
            b.pourShare p.hl ≤ b.armedCount (fun q => q.hl == p.hl) then b
        else
          let (engine, b) := b.pourEngine p.home
          let wd := if m.watchdogUs = 0 then b.obj 0x6800 3 else m.watchdogUs
          let early := m.held.filter fun k => k.pourSeq == p.seq
          let p' : Pour :=
            { p with armed := true, armedAt := b.now, armedTime := b.ftime, home := engine / 4,
                     engine := engine,
                     lastDoneAt := b.now, watchdog := wd }
          let b := b.setMould i { m with held := [], pours := p' :: m.pours.drop 1 }
          let b := (b.count 816 1).slotBytes i 0 (slice p.desc 36 4)
          early.foldl (fun b k =>
            if ((b.mould i).armed.map (·.seq)) = some p.seq then b.land i k else b) b

end Sys2Proof.Machine
end

