-- ==== Sys2Proof/Machine/Sieve.lean ====
section
/-! DEFINITION. The sieve: matching, placement, overflow pieces, pulls and the notification places
of receive-queue completions (R174 to R196, R515, R516). -/

namespace Sys2Proof.Machine

/-! ## Entries -/

/-- The in-flight entry of a connection's message (R181). -/
def Block.msgKey (b : Block) (c : Nat) (msn : BitVec 32) : Option Nat :=
  (b.inflight.find? fun e => e.2.ctx == c && e.2.msn == msn && !e.2.detached).map (·.1)

/-- A pull that holds an entry of the in-flight table (R181); one that was abandoned holds none. -/
def Op.pulls (o : Op) : Bool := o.kind == .pull && !o.closed

/-- Entries of the in-flight table that host link `hl` uses, pulls included (R181). -/
def Block.inflightUse (b : Block) (hl : Nat) : Nat :=
  (b.inflight.filter fun e => e.2.hl == hl).length +
    (b.ops.filter fun o => o.2.pulls && o.2.hl == hl).length

/-- Of these, the ones of function `fid`. -/
def Block.inflightOwn (b : Block) (fid : Nat) : Nat :=
  (b.inflight.filter fun e => (b.mctx e.2.mctx).fid == fid).length +
    (b.ops.filter fun o => o.2.pulls && o.2.fid == fid).length

/-- Entries of the posted-receive lists of host link `hl`, overflow buffers included (R187). -/
def Block.postedUse (b : Block) (pick : Mctx → Nat → Bool) : Nat :=
  b.mctxs.foldl (fun n e =>
    if pick e.2 e.1 then n + e.2.posted.length + e.2.overflow.length else n) 0

/-- Entries of unexpected lists. -/
def Block.unexpectedUse (b : Block) (pick : Mctx → Nat → Bool) : Nat :=
  b.mctxs.foldl (fun n e => if pick e.2 e.1 then n + e.2.unexpected.length else n) 0

/-- A posted-receive list entry is within the host link's quota and the VF's cap (R176, R216). -/
def Block.postedRoom (b : Block) (fid : Nat) : Bool :=
  b.within fid 10 0x18 (b.postedUse fun m _ => m.fid == fid)
    (b.postedUse fun _ k => k / 2 ^ 16 == fidLink fid) 1

/-- An unexpected-list entry is within quota and cap (R182, R216). -/
def Block.unexpectedRoom (b : Block) (fid : Nat) : Bool :=
  b.within fid 11 0x1C (b.unexpectedUse fun m _ => m.fid == fid)
    (b.unexpectedUse fun _ k => k / 2 ^ 16 == fidLink fid) 1

/-- An in-flight entry is within quota and cap (R182, R216). -/
def Block.inflightRoom (b : Block) (fid : Nat) : Bool :=
  b.within fid 12 0x20 (b.inflightOwn fid) (b.inflightUse (fidLink fid)) 1

/-- A receive matches an envelope (R177). -/
def Posted.matches (r : Posted) (tag : BitVec 64) (srcFa : Nat) : Bool :=
  ((tag ^^^ r.tag) &&& ~~~r.ignore) == 0 &&
  (match r.srcMode with
    | 0 => srcFa == r.srcFa
    | 1 => faNode srcFa == faNode r.srcFa
    | _ => true)

/-! ## Notification places of a receive queue (R193) -/

/-- The result fields of a POST_RECV completion (R185, R263). -/
def recvResult (e : InFlight) (len contextId : Nat) : Bytes :=
  toLe 8 e.tag.toNat ++ toLe 4 e.srcFa ++ toLe 4 len ++ toLe 4 e.msgLen ++
    toLe 1 (b2n e.viaPiece + b2n e.rts * 2) ++ zeros 1 ++ toLe 2 contextId

/-- The poll budget holds a whole read (R253). -/
def Block.hasBudget (b : Block) (hl : Nat) : Bool := decide (10 ^ 9 ≤ (b.link hl).bucket)

/-- A read of queue `q` falls due now; one that must wait for the budget is counted (R253). -/
def Block.fallsDue (b : Block) (q : Nat) : Block :=
  let b := b.modQueue q fun x => { x with pollAt := some b.now }
  if b.hasBudget (b.queue q).hl then b else b.count 834 1

/-- Taken descriptors of queue `q` leave it, `keep` the rest; a poll falls due once none is left (R251). -/
def Block.untake (b : Block) (q : Nat) (keep : List Taken → List Taken) : Block :=
  let b := b.modQueue q fun x => { x with taken := keep x.taken }
  let x := b.queue q
  if x.taken.isEmpty ∧ x.pollAt = none then b.fallsDue q else b

/-- The descriptor at the head of the taken ones leaves them. -/
def Block.popTaken (b : Block) (q : Nat) : Block := b.untake q (List.drop 1)

/-- The stages of a traced descriptor at its issue (R418). -/
def Taken.times (t : Taken) (now : Nat) : Option TraceTimes :=
  if t.traced then some { posted := t.at_, issued := now } else none

/-- Complete the head descriptor of queue `q`, whose notification place is reserved (R193, R255). -/
def Block.endHead (b : Block) (q : Nat) (t : Taken) (status : Nat) : Block :=
  (b.popTaken q).complete q t.idx t.bytes status [] (t.times b.ftime)

/-- Complete the head descriptor of queue `q` at once, reserving its place (R193, R255). -/
def Block.completeHead (b : Block) (q : Nat) (t : Taken) (status : Nat) : Block :=
  let qu := b.queue q
  (if qu.notify then b.reserve qu.eq else b).endHead q t status

/-- The head descriptor of queue `q` may take its notification place (R193, R255). -/
def Block.headPlace (b : Block) (q : Nat) : Bool :=
  let qu := b.queue q
  !qu.notify || b.placeOpen qu.eq

/-- The head descriptor of queue `q` is to complete with a status and waits for its notification place
(R193). -/
def Block.headAwaits (b : Block) (q : Nat) : Bool :=
  b.placeWait.any fun w =>
    match w.2 with
    | .head q' _ _ => q' == q
    | _ => false

/-- The head descriptor of queue `q` is to be completed with `status`: at once where its place is there.
That of a receive queue takes its turn among what waits for a place (R193). -/
def Block.finishHead (b : Block) (q : Nat) (t : Taken) (status : Nat) : Block :=
  let qu := b.queue q
  if b.headPlace q then b.completeHead q t status
  else if qu.ty = 0 || b.headAwaits q then b
  else { b with placeWait := b.placeWait ++ [(qu.eq, .head q t.idx status)] }

/-- A receive-queue completion falls due (R193): it is written when its place is reserved. `placed`
says that it already is, and `matched` that the receive had been matched (R194). -/
def Block.recvComplete (b : Block) (placed matched : Bool) (q idx : Nat) (desc : Bytes) (status : Nat)
    (result : Bytes) (trace : Option TraceTimes) : Block :=
  let qu := b.queue q
  if placed || !qu.notify then b.complete q idx desc status result trace
  else if b.placeOpen qu.eq then (b.reserve qu.eq).complete q idx desc status result trace
  else { b with placeWait := b.placeWait ++ [(qu.eq, .completion q idx desc status result trace matched)] }

/-! ## Overflow buffers -/

/-- A buffer that the sieve has moved past and whose pieces are released is retired (R188). -/
def Block.retireOverflow (b : Block) (m : Nat) : Block :=
  let x := b.mctx m
  let isDone (o : OvfBuf) : Bool := o.past && o.pieces == 0
  let waits (o : OvfBuf) : Bool := (b.queue o.q).notify && !o.placed
  let done := x.overflow.filter fun o => isDone o && !waits o
  let b := b.setMctx m { x with overflow := x.overflow.filter fun o => !(isDone o && !waits o) }
  done.foldl (fun b o =>
    b.recvComplete true false o.q o.idx o.desc stOk (toLe 4 o.used) o.trace) b

/-- The sieve moves past a buffer (R187): the place of its notification is reserved, or waited for
(R193). -/
def Block.movePast (b : Block) (m : Nat) (o : OvfBuf) : Block :=
  let qu := b.queue o.q
  let mark (placed : Bool) (b : Block) : Block :=
    b.modMctx m fun x =>
      { x with overflow := x.overflow.map fun p =>
          if p.q = o.q ∧ p.idx = o.idx then { p with past := true, placed := placed } else p }
  if !qu.notify then mark false b
  else if b.placeOpen qu.eq then mark true (b.reserve qu.eq)
  else mark false { b with placeWait := b.placeWait ++ [(qu.eq, .retire m o.q o.idx)] }

/-- Where the next piece of `size` bytes would go: the buffer, and those moved past (R187). -/
def piecePlace (size : Nat) : List OvfBuf → Option (List OvfBuf × OvfBuf)
  | [] => none
  | o :: t =>
    if o.past then piecePlace size t
    else if o.used + size ≤ o.len then some ([], o)
    else (piecePlace size t).map fun r => (o :: r.1, r.2)

/-- Overflow bytes of a matching context from buffer `o` on, less a piece of `size` bytes (R184). -/
def freeAfter (o : OvfBuf) (size : Nat) (l : List OvfBuf) : Nat :=
  let rest := l.dropWhile fun p => !(p.q == o.q && p.idx == o.idx)
  rest.foldl (fun n p => n + (p.len - p.used)) 0 - size

/-- An overflow piece for `size` bytes may be taken, leaving more than `reserve` bytes free where a
reserve is given (R184). -/
def Mctx.pieceOk (m : Mctx) (size : Nat) (reserve : Option Nat) : Bool :=
  match piecePlace size m.overflow with
  | none => false
  | some (_, o) =>
    match reserve with
    | none => true
    | some n => decide (n < freeAfter o size m.overflow)

/-- Take a piece (R187); its buffer and offset. -/
def Block.takePiece (b : Block) (m size : Nat) : Option (Nat × Nat × Nat) × Block :=
  match piecePlace size (b.mctx m).overflow with
  | none => (none, b)
  | some (passed, o) =>
    let b := passed.foldl (fun b p => b.movePast m p) b
    let b := b.modMctx m fun x =>
      { x with overflow := x.overflow.map fun p =>
          if p.q = o.q ∧ p.idx = o.idx then
            { p with used := p.used + size, pieces := p.pieces + 1 } else p }
    (some (o.q, o.idx, o.used), b.retireOverflow m)

/-- Release a message's piece (R188). -/
def Block.releasePiece (b : Block) (e : InFlight) : Block :=
  match e.piece with
  | none => b
  | some (q, idx, _) =>
    (b.modMctx e.mctx fun x =>
      { x with overflow := x.overflow.map fun p =>
          if p.q = q ∧ p.idx = idx then { p with pieces := p.pieces - 1 } else p }
      ).retireOverflow e.mctx

/-! ## Ending a message -/

/-- Close an in-flight entry (R181): its piece is released, what waits for it no longer does, and
its pull is abandoned. The PSNs that an abandoned pull has sent are still answered and sent again
(R140, R142). -/
def Block.closeMsg (b : Block) (k : Nat) : Block :=
  match b.msg k with
  | none => b
  | some e =>
    let b := { b with
      inflight := erase1 k b.inflight,
      placeWait := b.placeWait.filter fun w => !(w.2 == PlaceWaiter.copy k || w.2 == PlaceWaiter.pull k),
      ops := b.ops.filterMap fun (o : Nat × Op) =>
        if o.2.pulls && o.2.entry == k then
          (if (b.ctx o.2.ctx).unans.any fun u => u.op == o.1 then
            some (o.1, { o.2 with closed := true, allSent := true }) else none)
        else some o }
    (b.modMctx e.mctx fun x => { x with unexpected := x.unexpected.filter fun j => !(j == k) }
      ).releasePiece e

/-- The bytes of a message that its receive takes (R183, R185). -/
def InFlight.recvLen (e : InFlight) : Nat :=
  match e.recv with
  | some r => min e.msgLen r.len
  | none => 0

/-- Complete the receive of a matched message and close its entry (R185, R191); `len` is
`RECV_LEN`. -/
def Block.endRecv (b : Block) (k status len : Nat) : Block :=
  match b.msg k with
  | none => b
  | some e =>
    let b := b.closeMsg k
    match e.recv with
    | none => b
    | some r =>
      let b := if status = stTruncated then b.count 777 1 else b
      b.recvComplete e.placed true r.q r.idx r.desc status
        (recvResult e len (fld r.desc 32 2)) (r.trace.map fun t => { t with acked := e.matchedAt })

/-- An eager message completes once its bytes are in and no copy runs or waits (R185). -/
def Block.eagerDone (b : Block) (k : Nat) : Block :=
  match b.msg k with
  | none => b
  | some e =>
    if e.st = .matched ∧ !e.rts ∧ e.got = e.msgLen ∧ !e.copying then
      let len := e.recvLen
      b.endRecv k (if len < e.msgLen then stTruncated else stOk) len
    else b

/-- A pull has ended (R191): the receive completes, and then RDV_FIN is sent where `fin` says so. -/
def Block.pullDone (b : Block) (k outcome len : Nat) (fin : Bool) : Block :=
  match b.msg k with
  | none => b
  | some e =>
    let status := if outcome ≠ stOk then outcome
      else if len < e.msgLen then stTruncated else stOk
    let b := b.endRecv k status len
    if fin then
      let o : Op :=
        { kind := .fin, hl := e.hl, fid := (b.mctx e.mctx).fid, ctx := e.ctx, msn := e.msn,
          finStatus := status, finBytes := len }
      (b.addOp o).2
    else b

/-- A pull starts (R191): the connection's own side issues a GET into the receive buffer. A pull of
length 0 issues none. Its entry of the in-flight table (R181) is opened even where the host link's quota of
entries is used up (log 183). -/
def Block.startPull (b : Block) (k : Nat) : Block :=
  match b.msg k with
  | none => b
  | some e =>
    match e.recv with
    | none => b
    | some r =>
      let len := e.recvLen
      if len = 0 then b.pullDone k stOk 0 true
      else
      let o : Op :=
        { kind := .pull, hl := e.hl, fid := (b.mctx e.mctx).fid, ctx := e.ctx, len := len,
          addr := r.addr, lkey := r.lkey, remoteAddr := e.pullAddr, rkey := e.pullKey,
          msn := e.msn, entry := k }
      (b.addOp o).2

/-- What a match starts beside placing later packets: the copy of what lies in the piece, or the
pull, once its place is reserved (R183, R191, R193). -/
def Block.startMatched (b : Block) (k : Nat) : Block :=
  match b.msg k with
  | none => b
  | some e =>
    match e.recv with
    | none => b
    | some r =>
      let qu := b.queue r.q
      let copies := e.piece.isSome
      if !e.rts && !copies then b.eagerDone k
      else
        let b := if copies then b.modMsg k fun e => { e with copying := true, viaPiece := true }
          else b
        if !qu.notify then (if e.rts then b.startPull k else b)
        else if b.placeOpen qu.eq then
          let b := (b.reserve qu.eq).modMsg k fun e => { e with placed := true }
          if e.rts then b.startPull k else b
        else { b with placeWait := b.placeWait ++ [(qu.eq, if e.rts then .pull k else .copy k)] }

/-- The overflow buffer that holds a message's piece, and the piece's offset there. -/
def Block.pieceOf (b : Block) (e : InFlight) : Option (OvfBuf × Nat) :=
  match e.piece with
  | none => none
  | some (q, idx, po) =>
    ((b.mctx e.mctx).overflow.find? fun o => o.q == q && o.idx == idx).map fun o => (o, po)

/-- The copy out of a message's piece (R183): each run of bytes in it, as far as it lies below `LEN`. -/
def InFlight.copyRuns (e : InFlight) : List (Nat × Nat) :=
  (e.inPiece.map fun r => (r.1, min r.2 (e.recvLen - r.1))).filter fun r => r.2 != 0

/-- What the copy out of a message's piece still waits for before it can be made: the fills of its two
regions (R154), then a fresh translation of what it writes (R204). -/
def Block.copyAwaits (b : Block) (e : InFlight) : Bool × Block :=
  match b.pieceOf e, e.recv with
  | some (o, _), some r =>
    if e.copyRuns.isEmpty then (false, b)
    else
      match b.touchLocal e.hl o.lkey with
      | (some _, b) => (true, (b.touchLocal e.hl r.lkey).2)
      | (none, b) =>
        match b.touchLocal e.hl r.lkey with
        | (some _, b) => (true, b)
        | (none, b) =>
          (match b.keyRegion e.hl r.lkey with
            | some (_, t) => e.copyRuns.any fun c => b.awaitsMap t (r.addr + c.1) c.2
            | none => false, b)
  | _, _ => (false, b)

/-- The copy out of a message's piece is made: read there, and written to the receive buffer (R183). False
where a region of it is unusable (R154). -/
def Block.overflowCopy (b : Block) (e : InFlight) : Bool × Block :=
  match b.pieceOf e, e.recv with
  | some (o, po), some r =>
    match b.keyRegion e.hl o.lkey, b.keyRegion e.hl r.lkey with
    | some (_, f), some (_, t) =>
      (true, e.copyRuns.foldl (fun b c =>
        b.emit (.hostCopy e.hl t.fid (f.dma (o.addr + po + c.1)) f.pasid (t.dma (r.addr + c.1)) t.pasid
          c.2)) b)
    | _, _ => (e.copyRuns.isEmpty, b)
  | _, _ => (true, b)

/-! ## Matching -/

/-- The earliest posted receive that matches, with the number of entries scanned. -/
def firstMatch (l : List Posted) (tag : BitVec 64) (srcFa : Nat) : Option Posted × Nat :=
  match l.findIdx? fun r => r.matches tag srcFa with
  | some i => (l[i]?, i + 1)
  | none => (none, l.length)

/-- Match the message of entry `k` (R178, R180): it takes a receive or joins the unexpected list, and
`NEXT_MSN` of its connection advances. -/
def Block.matchOne (b : Block) (k : Nat) : Block :=
  match b.msg k with
  | none => b
  | some e =>
    let x := b.mctx e.mctx
    let (r, n) := firstMatch x.posted e.tag e.srcFa
    let b := (b.count 769 n).modCtx e.ctx fun c => { c with nextMatch := c.nextMatch + 1 }
    match r with
    | some p =>
      let b := b.setMctx e.mctx
        { x with posted := x.posted.filter fun y => !(y.q == p.q && y.idx == p.idx) }
      let b := (b.modMsg k fun e => { e with st := .matched, recv := some p, matchedAt := some b.ftime }).count 768 1
      (b.countEvent 8 x.fid none 1).startMatched k
    | none =>
      let b := b.setMctx e.mctx { x with unexpected := x.unexpected ++ [k] }
      (b.modMsg k fun e => { e with st := .unexpected }).count 771 1 |>.countEvent 9 x.fid none 1

/-- Match stashed messages while `NEXT_MSN` reaches them (R180); `fuel` bounds how many there are. -/
def Block.matchChain (b : Block) (c fuel : Nat) : Block :=
  match fuel with
  | 0 => b
  | n + 1 =>
    match b.msgKey c (b.ctx c).nextMatch with
    | none => b
    | some k =>
      match b.msg k with
      | some e => if e.st = .stashed then (b.matchOne k).matchChain c n else b
      | none => b

/-- The place in the unexpected list of the earliest message that a receive matches (R178). -/
def Block.unexpectedFor (b : Block) (m : Nat) (r : Posted) : Option Nat :=
  (b.mctx m).unexpected.findIdx? fun k =>
    match b.msg k with
    | some e => r.matches e.tag e.srcFa
    | none => false

/-- A receive is taken (R176, R178): it takes the earliest matching unexpected message, or joins the
posted-receive list. -/
def Block.takeRecv (b : Block) (m : Nat) (r : Posted) : Block :=
  let x := b.mctx m
  match b.unexpectedFor m r with
  | some i =>
    let k := nth 0 x.unexpected i
    let b := b.setMctx m { x with unexpected := x.unexpected.filter fun j => !(j == k) }
    let b := b.modMsg k fun e => { e with st := .matched, recv := some r, matchedAt := some b.ftime }
    ((b.count 768 1).count 769 (i + 1) |>.countEvent 8 x.fid none 1).startMatched k
  | none =>
    let b := b.setMctx m { x with posted := x.posted ++ [r] }
    b.count 769 x.unexpected.length

/-! ## An arriving SEND packet -/

/-- What became of an arriving SEND packet. -/
inductive SieveSays where
  | accept
  | rnr
  | refuse (status : Nat)
  | wait (w : Awaits)
  deriving DecidableEq, Repr

/-- Where payload of a message goes (R183): local key, address and the bytes that are written, none for
bytes at or beyond `LEN`. -/
def Block.placeAt (b : Block) (e : InFlight) (off : Nat) (data : Bytes) : Option (Nat × Nat × Bytes) :=
  let (key, addr, d) := match e.recv with
    | some r => (r.lkey, r.addr + off, data.take (r.len - off))
    | none =>
      match b.pieceOf e with
      | some (o, po) => (o.lkey, o.addr + po + off, data)
      | none => (0, 0, [])
  if d.isEmpty then none else some (key, addr, d)

/-- Place payload of message `k` (R183), counting what is written to host memory (R413). False where the
write cannot be issued. -/
def Block.place (b : Block) (k : Nat) (e : InFlight) (off : Nat) (data : Bytes) : Bool × Block :=
  match b.placeAt e off data with
  | none => (true, b)
  | some (key, addr, d) =>
    match b.localWrite e.hl key addr d with
    | (false, b) => (false, b)
    | (true, b) =>
      let b := if e.recv.isSome then b
        else b.modMsg k fun e => { e with inPiece := e.inPiece ++ [(off, d.length)] }
      let q := match e.recv with
        | some r => some r.q
        | none => e.piece.map (·.1)
      (true, b.countEvent 4 (b.mctx e.mctx).fid q d.length)

/-- A later packet of a message, or the first once its entry is open (R183, R185, R186, R193). -/
def Block.sievePlace (b : Block) (k off : Nat) (data : Bytes) : SieveSays × Block :=
  match b.msg k with
  | none => (.accept, b)
  | some e =>
    let last := e.got + data.length == e.msgLen && e.st == .matched && !e.rts
    let needs := match e.recv with
      | some r => last && !e.placed && (b.queue r.q).notify
      | none => false
    let eq := match e.recv with
      | some r => (b.queue r.q).eq
      | none => 0
    let awaits := match b.placeAt e off data with
      | some (key, addr, d) => b.landAwaits e.hl key addr d.length
      | none => none
    match awaits with
    | some w => (.wait w, b.await w)
    | none =>
    if needs && !b.placeOpen eq then (.rnr, b)
    else
      let b := if needs then (b.reserve eq).modMsg k fun e => { e with placed := true } else b
      let (ok, b) := b.place k e off data
      if ok then
        let b := b.modMsg k fun e => { e with got := e.got + data.length }
        (.accept, b.eagerDone k)
      else if e.st = .matched then (.refuse stHostDmaError, b.endRecv k stHostDmaError (min e.recvLen e.got))
      else (.refuse stHostDmaError, b)

/-- Counters 772 to 775: sieve refusals by the causes of R182. -/
def Block.sieveRnr (b : Block) (cause : Nat) : SieveSays × Block := (.rnr, b.count (772 + cause) 1)

/-- Open the entry of a message's first packet (R180 to R184); none where it meets an RNR of R182,
with the cause. `next` says that the message's turn has come, in which case it is matched. -/
def Block.sieveOpen (b : Block) (e : InFlight) (next : Bool) : Option Nat × Block × Nat :=
  let fid := (b.mctx e.mctx).fid
  let m := b.mctx e.mctx
  let free := b.quota e.hl 12 - b.inflightUse e.hl
  let size := roundUp e.msgLen 64
  let matched := next && (firstMatch m.posted e.tag e.srcFa).1.isSome
  let piece := !e.rts && e.msgLen != 0 && !matched
  let reserve := if next then none else some (b.obj (0x2030 + e.hl) 8)
  if !b.inflightRoom fid then (none, b, 0)
  else if !next && decide (free ≤ b.obj (0x2030 + e.hl) 7) then (none, b, 1)
  else if next && !matched && !b.unexpectedRoom fid then (none, b, 2)
  else if piece && !m.pieceOk size reserve then (none, b, 3)
  else
    let (at_, b) := if piece then b.takePiece e.mctx size else (none, b)
    let k := b.nextOp
    let b := { b with inflight := b.inflight ++ [(k, { e with piece := at_ })], nextOp := k + 1 }
    if next then (some k, b.matchOne k, 0) else (some k, b.count 770 1, 0)

/-- Checks 1 to 4 of R175, with R52; `fid` and `pd` are the target endpoint's. -/
def Block.sieveCheck (b : Block) (hl fid pd : Nat) (p : Pkt) : Nat :=
  let m := b.mctx (mctxKey hl (p.at_ 72 2))
  let msgLen := p.at_ 76 4
  if !m.live || m.fid ≠ fid then stAccess
  else if m.pd ≠ pd then stPdMismatch
  else if (if p.kind = 1 then decide (16384 < msgLen) else decide (msgLen < 1)) then stMalformed
  else if p.kind = 2 ∧ p.plen ≠ 0 then stMalformed
  else if p.kind = 1 ∧ p.plen = 0 ∧ ¬(msgLen = 0 ∧ p.offset = 0) then stMalformed
  else if msgLen < p.offset + p.plen then stMalformed
  else stOk

/-- A refused packet of a matched message completes its receive (R186). -/
def Block.sieveRefuse (b : Block) (c : Nat) (p : Pkt) (status : Nat) : SieveSays × Block :=
  match b.msgKey c p.msn with
  | none => (.refuse status, b)
  | some k =>
    match b.msg k with
    | some e =>
      if e.st = .matched then (.refuse status, b.endRecv k status (min e.recvLen e.got))
      else (.refuse status, b)
    | none => (.refuse status, b)

/-- The first packet of a message that no receive has taken was refused, so that it opens no entry
(R181). -/
def Block.firstRefused (b : Block) (k : Nat) : Bool :=
  match b.msg k with
  | some e => e.st != .matched
  | none => false

/-- A new SEND_EAGER or SEND_RTS packet on connection `c` (R175, R180 to R186). A first packet that matches at once
and whose host write then fails ends the receive as R186 says of a later packet, and its message counts as matched
(log 182). -/
def Block.sieveTake (b : Block) (c : Nat) (p : Pkt) : SieveSays × Block :=
  let hl := ctxLink c
  let e := b.ep (faEp p.dstFa)
  let st := b.sieveCheck hl e.fid e.pd p
  let ahead := ahead32 p.msn (b.ctx c).nextMatch
  if st ≠ stOk then b.sieveRefuse c p st
  else
    match b.msgKey c p.msn with
    | some k => b.sievePlace k p.offset p.payload
    | none =>
      if 2 ^ 31 ≤ ahead then (.accept, b)
      else if 1024 ≤ ahead then (.refuse stMalformed, b)
      else
        let x : InFlight :=
          { st := .stashed, ctx := c, msn := p.msn, hl := hl, mctx := mctxKey hl (p.at_ 72 2),
            rts := p.kind == 2, tag := BitVec.ofNat 64 (p.at_ 64 8), srcFa := p.srcFa,
            msgLen := p.at_ 76 4, pullKey := p.at_ 80 4, pullAddr := p.at_ 88 8 }
        let needsPlace :=
          let r := (firstMatch (b.mctx x.mctx).posted x.tag x.srcFa).1
          match r with
          | some r => ahead == 0 && !x.rts && p.plen == x.msgLen && (b.queue r.q).notify &&
              !b.placeOpen (b.queue r.q).eq
          | none => false
        if needsPlace then (.rnr, b)
        else
          match b.sieveOpen x (ahead == 0) with
          | (none, b, cause) => b.sieveRnr cause
          | (some k, opened, _) =>
            match opened.sievePlace k p.offset p.payload with
            | (.wait w, _) => (.wait w, b.await w)
            | (answer, after) =>
              if answer ≠ .accept ∧ after.firstRefused k then (answer, b)
              else (answer, after.matchChain c after.inflight.length)

/-! ## Places that come free -/

/-- Give a place of EQ `eq` to the waiter at the head (R193). -/
def Block.grantPlace (b : Block) (eq : Nat) (w : PlaceWaiter) : Block :=
  let b := b.reserve eq
  match w with
  | .completion q idx desc st res trace _ => b.complete q idx desc st res trace
  | .head q idx st =>
    match (b.queue q).taken with
    | t :: _ => if t.idx = idx then b.endHead q t st else b.unreserve eq
    | [] => b.unreserve eq
  | .retire m q idx =>
    (b.modMctx m fun x =>
      { x with overflow := x.overflow.map fun p =>
          if p.q = q ∧ p.idx = idx then { p with placed := true } else p }).retireOverflow m
  | .copy k => b.modMsg k fun e => { e with placed := true }
  | .pull k => (b.modMsg k fun e => { e with placed := true }).startPull k

/-- Serve the completions, copies and pulls that wait for a place, in order (R193). -/
def Block.servePlaces (b : Block) : Block :=
  let waiting := b.placeWait
  waiting.foldl (fun b w =>
    if (b.placeWait.find? fun v => v.1 == w.1) = some w ∧ b.placeFree w.1 then
      ({ b with placeWait := b.placeWait.erase w }).grantPlace w.1 w.2
    else b) b

/-! ## Connections that end, contexts that are destroyed -/

/-- Bytes of a matched message that have arrived: what its pull has brought for a rendezvous (R191, R196). -/
def Block.arrivedBytes (b : Block) (k : Nat) (e : InFlight) : Nat :=
  if e.rts then
    match b.ops.find? fun o => o.2.kind == .pull && o.2.entry == k with
    | some o => o.2.finBytes
    | none => 0
  else e.got

/-- The sieve acts on the messages of a connection that leaves ACTIVE (R196). The receive of a matched message counts
the bytes that have arrived (log 58). -/
def Block.sieveLeave (b : Block) (c : Nat) : Block :=
  let mine := b.inflight.filter fun e => e.2.ctx == c && !e.2.detached
  mine.foldl (fun b x =>
    match b.msg x.1 with
    | none => b
    | some e =>
      match e.st with
      | .stashed => b.closeMsg x.1
      | .unexpected =>
        if !e.rts && e.got == e.msgLen then b.modMsg x.1 fun e => { e with detached := true }
        else b.closeMsg x.1
      | .matched => b.endRecv x.1 stConnError (min e.recvLen (b.arrivedBytes x.1 e))) b

/-- Flush a receive that completes without fields (R194, R195, R263). -/
def Block.flushRecv (b : Block) (r : Posted) : Block :=
  b.recvComplete false false r.q r.idx r.desc stFlushed [] r.trace

/-- A matched message's receive ends with FLUSHED and no fields (R195). -/
def Block.flushMsg (b : Block) (k : Nat) : Block :=
  match b.msg k with
  | none => b
  | some e =>
    let b := b.closeMsg k
    match e.recv with
    | none => b
    | some r => b.recvComplete e.placed true r.q r.idx r.desc stFlushed [] r.trace

/-- Destroy a matching context (R195). -/
def Block.destroyMctx (b : Block) (m : Nat) : Block :=
  let x := b.mctx m
  let mine := b.inflight.filter fun e => e.2.mctx == m
  let b := b.setMctx m { x with overflow := [] }
  let b := mine.foldl (fun b e => b.flushMsg e.1) b
  let b := { b.setMctx m {} with
    placeWait := b.placeWait.filter fun w =>
      match w.2 with
      | .retire m' _ _ => !(m' == m)
      | _ => true }
  let b := x.posted.foldl (fun b r => b.flushRecv r) b
  x.overflow.foldl (fun b o =>
    b.recvComplete o.placed false o.q o.idx o.desc stFlushed [] o.trace) b

/-- Remove a function's matching contexts, writing nothing (R196). -/
def Block.dropMctxs (b : Block) (fid : Nat) : Block :=
  let gone (m : Nat) : Bool := (b.mctx m).live && (b.mctx m).fid == fid
  let keys := (b.inflight.filter fun e => gone e.2.mctx).map (·.1)
  { b with
    inflight := b.inflight.filter fun e => !gone e.2.mctx,
    placeWait := b.placeWait.filter fun w => !((b.queue w.1).fid == fid),
    ops := b.ops.filter fun o => !(o.2.kind == .pull && keys.contains o.2.entry),
    mctxs := Tbl.drop gone b.mctxs }

end Sys2Proof.Machine
end

