-- ==== Sys2Proof/Machine/Requester.lean ====
section
/-! DEFINITION. The requester's side of the transport: the end of operations and connections (R125,
R140, R143, R513), answers (R140, R141), retransmission (R142), and the building of REQ packets
(R102, R118, R132 to R134). -/

namespace Sys2Proof.Machine

/-! ## Ends -/

/-- Bytes of the old value of an ATOMIC (R258, R263): 4 where `WIDTH` is 0, for a 32-bit one. -/
def Op.oldBytes (o : Op) : Nat := if bit (fld o.desc 28 4) 4 then 8 else 4

/-- The result fields of a send-queue operation (R263). -/
def Op.result_ (o : Op) : Bytes :=
  match o.kind with
  | .atomic => slice o.result 0 o.oldBytes
  | .mcast => toLe 4 (o.delivered.getD 0) ++ toLe 4 o.fenced
  | _ => []

/-- The operation with its trace record's stages changed (R418). -/
def Op.traced (o : Op) (f : TraceTimes → TraceTimes) : Op := { o with trace := o.trace.map f }

/-- Write an operation's completion (R263). -/
def Block.writeDone (b : Block) (o : Op) (status : Nat) : Block :=
  let result := if status = stOk ∨ o.kind = .mcast then o.result_ else []
  b.complete o.q o.idx o.desc status result o.trace

/-- An operation ends with `status` (R140, R190, R191). A pull that ended by TIMEOUT or
RETRY_EXCEEDED, or with its connection, sends no RDV_FIN. A rendezvous SEND that ends before its RTS
is answered keeps its record, so that the RTS can be sent again. -/
def Block.endOp (b : Block) (n status : Nat) : Block :=
  match b.op n with
  | none => b
  | some o =>
    let x := b.ctx o.ctx
    if o.closed then b.dropOp n
    else
      match o.kind with
      | .fin => b.dropOp n
      | .pull =>
        let len := if status = stOk then o.len else o.finBytes
        (b.dropOp n).pullDone o.entry status len
          (!(status == stTimeout || status == stRetryExceeded || status == stFlushed))
      | .rts =>
        let kept := x.st == .active && x.unans.any fun u => u.op == n
        ((if kept then b.modOp n fun o => { o with closed := true } else b.dropOp n)
          ).writeDone o status
      | _ => (b.dropOp n).writeDone o status

/-- What leaving ACTIVE does whatever the cause (R125, R138, R196): the send state ends, copies that
wait meet the context afresh, and its atomic cache entries are freed. -/
def Block.leaveActive (b : Block) (c : Nat) (st : CtxSt) (status : Nat) : Block :=
  let x := b.ctx c
  { b.setCtx c { x with st := st, errStatus := status, unans := [], timerAt := none, tries := 0,
                        inHand := [], stashed := [], waiting := [], ackCount := 0, ackSince := none } with
    atomics := b.atomics.filter fun a => !(a.ctx == c),
    delivery := b.delivery ++ x.waiting }

/-- Every operation outstanding on a context ends with FLUSHED (R125). -/
def Block.flushOps (b : Block) (c : Nat) : Block :=
  let mine := b.ops.filter fun o => o.2.ctx == c && o.2.kind != .mcast
  mine.foldl (fun b o => b.endOp o.1 stFlushed) b

/-- The context enters ERROR and records `status` (R125, R129, R171, R196). -/
def Block.enterError (b : Block) (c status : Nat) : Block :=
  let x := b.ctx c
  if x.st ≠ .free ∧ x.st ≠ .error then
    let b := b.leaveActive c .error status
    let b := b.event x.fid 4 (toLe 4 c ++ toLe 1 status)
    (b.sieveLeave c).flushOps c
  else b

/-- An operation cannot go on (R513): before its first PSN it ends alone, after it the context enters
ERROR. -/
def Block.failOp (b : Block) (n status : Nat) : Block :=
  match b.op n with
  | none => b
  | some o =>
    let b := b.endOp n status
    if o.started && o.kind != .mcast then b.enterError o.ctx status else b

/-! ## The timer and answers -/

/-- A PSN runs the timer: unanswered, and not waiting out an RNR (R142). -/
def Ctx.timed (x : Ctx) : Bool := x.unans.any fun u => u.rnrUntil.isNone

/-- Bring the timer to what is unanswered; `restart` starts it anew (R142). -/
def Ctx.setTimer (x : Ctx) (now : Nat) (restart : Bool) : Ctx :=
  { x with timerAt :=
      if !x.timed then none else if restart || x.timerAt.isNone then some now else x.timerAt }

/-- The operation has sent everything and every PSN of it is answered (R140). -/
def Block.opAnswered (b : Block) (n : Nat) (o : Op) : Bool :=
  o.allSent && (b.ctx o.ctx).unans.all fun u => !(u.op == n)

/-- Complete an operation that is done (R140, R190). A rendezvous SEND whose RTS is answered waits
for its RDV_FIN. -/
def Block.opDone (b : Block) (n : Nat) : Block :=
  match b.op n with
  | none => b
  | some o =>
    if !b.opAnswered n o then b
    else if o.kind = .rts ∧ o.status = stOk then
      if o.closed then b.dropOp n
      else
        let w := b.obj (0x2030 + o.hl) 6
        if o.rtsAnswered.isSome then b
        else b.modOp n fun o =>
          { o with rtsAnswered := some b.now,
                   rdvUntil := if w = 0 then none else some (b.now + w * 10 ^ 6) }
    else b.endOp n o.status

/-- PSN `psn` of connection `c` is answered with `status` (R140, R142); counts of tries restart when
the oldest unanswered PSN advances. -/
def Block.answer (b : Block) (c : Nat) (psn : BitVec 32) (status : Nat) : Block :=
  let x := b.ctx c
  match x.unans.find? fun u => u.psn == psn with
  | none => b
  | some u =>
    let oldest := match x.unans with
      | v :: _ => v.psn == psn
      | [] => false
    let y : Ctx := { x with unans := x.unans.filter (fun v => !(v.psn == psn)),
                            tries := if oldest then 0 else x.tries }
    let b := b.setCtx c (y.setTimer b.now oldest)
    let b := b.modOp u.op fun o =>
      { o with status := if o.status = stOk then status else o.status,
               resend := o.resend.filter (fun p => !(p == psn)),
               trace := o.trace.map fun t => { t with acked := some b.ftime } }
    b.opDone u.op

/-- A kind that an ACK answers (R140): SEND_EAGER, SEND_RTS, PUT, RDV_FIN. -/
def ackAnswers (kind : Nat) : Bool := kind == 1 || kind == 2 || kind == 3 || kind == 0x43

/-- An ACK covers a PSN, through `ACK_PSN` or `SACK` (R44, R140). -/
def ackCovers (ackPsn : BitVec 32) (sack : Nat) (psn : BitVec 32) : Bool :=
  let d := ahead32 psn ackPsn
  d == 0 || decide (2 ^ 31 ≤ d) || (decide (d ≤ 64) && bit sack (d - 1))

/-- Record an echo (R101). -/
def Block.takeEcho (b : Block) (c heatByte path : Nat) : Block :=
  if bit heatByte 7 then
    b.modCtx c fun x =>
      { x with heat := x.heat.set (path % 4) (bits heatByte 6 0),
               heatAt := x.heatAt.set (path % 4) b.now }
  else b

/-- Something has arrived on the connection (R143). -/
def Block.hear (b : Block) (c : Nat) : Block :=
  b.modCtx c fun x => { x with unans := x.unans.map fun u => { u with heard := true } }

/-! ## Retransmission -/

/-- A data kind that carries payload read from host memory. -/
def hasPayload (kind : Nat) : Bool := kind == 1 || kind == 3 || kind == 8

/-- Bytes of host staging that the operations `pick` chooses hold: payload read and not sent, and payload
being read (R213, log 147). -/
def Block.stagedBytes (b : Block) (pick : Op → Bool) : Nat :=
  let reads (n : Nat) : Nat := b.dma.foldl (fun k d =>
    match d.purpose with
    | .payload m _ => if m = n then k + d.len else k
    | _ => k) 0
  b.ops.foldl (fun k o =>
    if pick o.2 then k + (o.2.staged.map fun s => s.2.length).sum + reads o.1 else k) 0

/-- `len` more bytes of payload fit the host link's and the VF's share of host staging (R213, R216). -/
def Block.stagingRoom (b : Block) (o : Op) (len : Nat) : Bool :=
  let q := b.quota o.hl 15
  decide (b.stagedBytes (fun p => p.hl == o.hl) + len ≤ q * 1024) &&
    decide (b.stagedBytes (fun p => p.fid == o.fid) + len ≤ b.cap o.fid 0x2C q * 1024)

/-- Read the payload of an operation at `off` from its local buffer (R142, R158). The read waits for the
fill of its region (R130, R154) and for room in host staging (R213). -/
def Block.readPayload (b : Block) (n off len : Nat) : Block :=
  match b.op n with
  | none => b
  | some o =>
    let waits (b : Block) : Block := { b with readWait := b.readWait ++ [⟨n, off, len⟩] }
    match b.touchLocal o.hl o.lkey with
    | (some _, b) => waits b
    | (none, b) =>
      if !b.stagingRoom o len then waits b
      else
        let (ok, b) := b.localRead o.hl o.lkey (o.addr + off) len (.payload n off)
        if ok then b else b.failOp n stHostDmaError

/-- The payload reads that wait are tried again. -/
def Block.serveReads (b : Block) : Block :=
  let l := b.readWait
  l.foldl (fun b r => b.readPayload r.op r.off r.len) { b with readWait := [] }

/-- `p` among PSNs that stand in order (R142). -/
def insertPsn (p : BitVec 32) : List (BitVec 32) → List (BitVec 32)
  | [] => [p]
  | q :: t => if ahead32 p q < 2 ^ 31 then q :: insertPsn p t else p :: q :: t

/-- Queue a PSN to be sent again in PSN order, its payload reread (R142). -/
def Block.resend (b : Block) (u : Unans) : Block :=
  match b.op u.op with
  | none => b
  | some o =>
    if u.psn ∈ o.resend then b
    else
      let b := b.modOp u.op fun o =>
        { o with resend := insertPsn u.psn o.resend,
                 trace := o.trace.map fun t => { t with tries := t.tries + 1 } }
      if hasPayload u.kind && u.len != 0 then b.readPayload u.op u.off u.len else b

/-- The timer's expiry is recorded for what it sends again (R112, R145). -/
def Ctx.markExpiry (x : Ctx) (now : Nat) : Ctx :=
  { x with unans := x.unans.map fun u => if u.rnrUntil.isNone then
      { u with timerSent := some now, before := some u.path } else u }

/-- The expiry of the timer was recorded at this instant, before the answer to this PSN (R145). -/
def Unans.expired (u : Unans) (now : Nat) : Bool := u.timerSent == some now

/-- Queue every unanswered PSN from `from_` on that waits out no RNR (R141, R142). -/
def Block.resendFrom (b : Block) (c : Nat) (from_ : BitVec 32) : Block :=
  ((b.ctx c).unans.filter fun u =>
      u.rnrUntil.isNone && decide (ahead32 u.psn from_ < 2 ^ 31)).foldl
    (fun b u => if (b.ctx c).st = .active then b.resend u else b) b

/-- One more try, where the retry limit allows it (R112, R141, R142); otherwise nothing is sent and
the timer ends the operation. -/
def Block.tryAgain (b : Block) (c : Nat) (again : Block → Block) : Block :=
  let x := b.ctx c
  if x.tries < x.retryLimit then
    again ((b.setCtx c { x with tries := x.tries + 1 }).count 518 1)
  else b

/-! ## Building REQ packets -/

/-- The envelope of an operation's packets (R48). -/
def Op.envelope (o : Op) : Bytes :=
  toLe 8 (fld o.desc 16 8) ++ toLe 2 (fld o.desc 24 2) ++ zeros 2 ++ toLe 4 o.len ++
    (if o.kind = .rts then toLe 4 o.lkey ++ zeros 4 ++ toLe 8 o.addr else [])

/-- The operation block of an operation's packets (R49). -/
def Op.block (o : Op) : Bytes :=
  match o.kind with
  | .atomic =>
    let w := fld o.desc 28 4
    toLe 8 o.remoteAddr ++ toLe 4 o.rkey ++ toLe 4 w ++ toLe 8 (fld o.desc 40 8) ++
      toLe 8 (if bits w 3 0 = 2 then fld o.desc 48 8 else 0)
  | _ => toLe 8 o.remoteAddr ++ toLe 4 o.rkey ++ toLe 4 o.len

/-- `KIND` of an operation's packets (R47); RDV_FIN is 0x43 here. -/
def OpKind.code : OpKind → Nat
  | .eager => 1
  | .rts => 2
  | .put => 3
  | .get => 4
  | .pull => 4
  | .atomic => 6
  | .mcast => 8
  | .fin => 0x43

/-- Bytes that the packet at offset `off` of an operation carries or asks for (R52, R132). -/
def Op.pktLen (o : Op) (off : Nat) : Nat :=
  match o.kind with
  | .eager => min 4096 (o.len - off)
  | .put => min 4096 (o.len - off)
  | .mcast => min 4096 (o.len - off)
  | .get => min (off / 2 ^ 20 * 2 ^ 20 + 2 ^ 20) o.len - off
  | .pull => min (off / 2 ^ 20 * 2 ^ 20 + 2 ^ 20) o.len - off
  | _ => 0

/-- PSNs that the packet at `off` takes (R132). -/
def Op.pktPsns (o : Op) (off : Nat) : Nat :=
  match o.kind with
  | .get => (o.pktLen off + 4095) / 4096
  | .pull => (o.pktLen off + 4095) / 4096
  | _ => 1

/-- The packet at `off` is the operation's last. -/
def Op.lastAt (o : Op) (off : Nat) : Bool :=
  match o.kind with
  | .rts => true
  | .atomic => true
  | .fin => true
  | _ => decide (o.len ≤ off + o.pktLen off)

/-- A REQ packet of operation `o` on connection `x` (R46 to R49, R132, R134), without its route. -/
def Block.reqPkt (b : Block) (x : Ctx) (o : Op) (psn msn : BitVec 32) (off : Nat) (payload : Bytes)
    (ackReq : Bool) (path : Nat) : Pkt :=
  let part := (b.ep x.localEp).partition
  let src := mkFa b.nodeId x.localEp
  if o.kind = .fin then
    ctlPkt 3 0 false 0 part x.remoteFa src psn.toNat
      (toLe 4 o.msn.toNat ++ toLe 4 x.remoteCtx ++ toLe 4 o.finBytes ++ toLe 1 o.finStatus)
  else
    let blk := if o.kind = .eager ∨ o.kind = .rts then o.envelope else o.block
    let h : DataHdr :=
      { kind := o.kind.code, part := part, dst := x.remoteFa, src := src, psn := psn, msn := msn,
        offset := off, ackReq := ackReq, path := path, ctx := x.remoteCtx }
    dataPkt h blk payload

/-- The payload of operation `o` at `off` is at hand. -/
def Op.payloadAt (o : Op) (off : Nat) : Option Bytes :=
  if hasPayload o.kind.code && o.pktLen off != 0 then lookup off o.staged else some []

/-- The payload at `off` has been taken for its packet. -/
def Op.used (o : Op) (off : Nat) : Op :=
  { o with staged := erase1 off o.staged, spoilt := o.spoilt.filter fun k => !(k == off) }

/-- The partition check of R118 for a unicast packet. -/
def Block.mayInject (b : Block) (x : Ctx) : Bool :=
  let q := (b.ep x.localEp).partition
  b.member q b.nodeId && b.member q (faNode x.remoteFa)

/-- The choice of R102 for a REQ of connection `x`; a packet to this node needs no path (R39). -/
def Block.reqPath (b : Block) (x : Ctx) : PathChoice :=
  let node := faNode x.remoteFa
  if node = b.nodeId then .path 0 { hops := [], word := 0 }
  else b.choosePath node 0 true (nth 0 x.heat) (x.held b.now) x.lastPath

/-- Put a built packet on its path (R37, R102). One whose payload met a poisoned word is dropped, and sent again
as an unanswered PSN is (R399). -/
def Block.launch (b : Block) (bad : Bool) (c j : Nat) (p : Path) (pkt : Pkt) : Block :=
  if bad then b
  else if faNode pkt.dstFa = b.nodeId then b.inject pkt
  else (b.modCtx c fun x => { x with lastPath := j }).inject (pkt.withRoute p)

/-- Count what a sent REQ packet counts (R409, R413). -/
def Block.countSent (b : Block) (o : Op) (n : Nat) (again : Bool) : Block :=
  let q := if o.kind = .pull ∨ o.kind = .fin then none else some o.q
  let b := b.countEvent 3 o.fid q n
  if again then (b.count 517 1).countEvent 5 o.fid q 1 else b

/-- Send PSN `psn` of operation `n` again (R142). A run of a GET goes as one GET_REQ, so every queued
PSN of its 1 MiB block is served by it. -/
def Block.injectAgain (b : Block) (n : Nat) (o : Op) (psn : BitVec 32) (u : Unans) (j : Nat)
    (p : Path) : Block :=
  match o.payloadAt u.off with
  | none => b
  | some payload =>
    let x := b.ctx o.ctx
    let gets := u.kind == 4
    let served (q : BitVec 32) : Bool :=
      q == psn || (gets && x.unans.any fun v =>
        v.psn == q && v.op == n && v.off / 2 ^ 20 == u.off / 2 ^ 20)
    let left := o.resend.filter fun q => !served q
    let ack := left.isEmpty || decide (512 ≤ x.unans.length) || o.lastAt u.off
    let pkt := b.reqPkt x o psn u.msn u.off payload ack j
    let b := b.modOp n fun o => ((({ o with resend := left } : Op).used u.off)).traced
      fun t => { t with path := j }
    let b := b.modCtx o.ctx fun x =>
      ({ x with unans := x.unans.map fun v => if served v.psn then { v with path := j } else v } : Ctx
        ).setTimer b.now false
    (b.countSent o payload.length true).launch (o.spoilt.contains u.off) o.ctx j p pkt

/-- Build and send the next new packet of operation `n` (R132 to R134, R513): its payload is at hand
and its PSNs fit the window. They count among the 512 unanswered ones of `ACK_REQ` (log 158). -/
def Block.injectNew (b : Block) (n : Nat) (o : Op) (j : Nat) (p : Path) : Block :=
  let x := b.ctx o.ctx
  let off := o.next
  let k := o.pktPsns off
  let oldest := match x.unans with
    | u :: _ => u.psn
    | [] => x.nextPsn
  match o.payloadAt off with
  | none => b
  | some payload =>
    if 1024 < ahead32 x.nextPsn oldest + k then b
    else
      let sends := o.kind == .eager || o.kind == .rts
      let takes := sends && !o.started
      let msn := if o.started ∨ o.kind = .fin then o.msn else x.nextMsn
      let last := o.lastAt off
      let ack := last || decide (512 ≤ x.unans.length + k)
      let pkt := b.reqPkt x o x.nextPsn msn off payload ack j
      let mine := (List.range k).map fun i =>
        let uo := off + 4096 * i
        ({ psn := x.nextPsn + BitVec.ofNat 32 i, op := n, kind := o.kind.code, off := uo,
           len := if k = 1 ∧ o.kind ≠ .get ∧ o.kind ≠ .pull then o.pktLen off
             else min 4096 (off + o.pktLen off - uo),
           msn := msn, path := j } : Unans)
      let y : Ctx :=
        { x with nextPsn := x.nextPsn + BitVec.ofNat 32 k, unans := x.unans ++ mine,
                 nextMsn := if takes then x.nextMsn + 1 else x.nextMsn }
      let b := b.setCtx o.ctx (y.setTimer b.now false)
      let step := match o.kind with
        | .get => o.pktLen off
        | .pull => o.pktLen off
        | _ => 4096
      let b := b.modOp n fun o =>
        (({ o with started := true, msn := msn, next := off + step, allSent := last } : Op).used off).traced
          fun t => { t with path := j }
      let b := (b.countSent o payload.length false).launch (o.spoilt.contains off) o.ctx j p pkt
      if hasPayload o.kind.code && !last then b.readPayload n (off + step) (o.pktLen (off + step))
      else b

/-- No operation of the connection has an earlier PSN to send again (R142). -/
def Block.resendFirst (b : Block) (c : Nat) (psn : BitVec 32) : Bool :=
  b.ops.all fun o => !(o.2.ctx == c && o.2.kind != .mcast) ||
    o.2.resend.all fun q => decide (ahead32 q psn < 2 ^ 31)

/-- The packet that a unicast operation sends next (R102, R118, R142, R513). -/
def Block.injectUni (b : Block) (n : Nat) (o : Op) : Block :=
  let x := b.ctx o.ctx
  let ready := !o.resend.isEmpty || !o.allSent
  if x.st ≠ .active ∨ !ready then b
  else
    let (cached, b) := b.touchCtx o.ctx
    if !cached then b
    else if !b.mayInject x then b.failOp n stFenced
    else
      match b.reqPath x with
      | .unroutable => b.failOp n stUnroutable
      | .wait => b
      | .path j p =>
        match o.resend with
        | psn :: _ =>
          match (x.unans.find? fun u => u.psn == psn) with
          | some u => if b.resendFirst o.ctx psn then b.injectAgain n o psn u j p else b
          | none => b.modOp n fun o => { o with resend := o.resend.drop 1 }
        | [] => b.injectNew n o j p

/-- The tree of a PUT with `MCAST` (R258). -/
def Op.tree (o : Op) : Nat := bits (fld o.desc 36 4) 11 0

/-- The next MCAST_PUT packet of an operation (R115, R118). One whose payload met a poisoned word is made anew
from host memory (R399). -/
def Block.injectMcast (b : Block) (n : Nat) (o : Op) : Block :=
  let w := Tbl.get 0 b.sprue o.tree
  let srcEp := bits (fld o.desc 48 8) 29 16
  let dstEp := bits (fld o.desc 48 8) 13 0
  let part := (b.ep srcEp).partition
  if o.allSent then b
  else if !sprueValid w || !sprueRoot w then b.endOp n stUnroutable
  else if !b.member part b.nodeId then b.endOp n stFenced
  else if 4 ≤ (b.mcastOut.filter fun m => m.1 == o.tree).length then b
  else
    match o.payloadAt o.next with
    | none => b
    | some payload =>
      if o.spoilt.contains o.next then
        (b.modOp n fun o => o.used o.next).readPayload n o.next (o.pktLen o.next)
      else
      let psn := BitVec.ofNat 32 (Tbl.get 0 b.treeSeq o.tree)
      let h : DataHdr :=
        { kind := 8, part := part, dst := mkFa 0 dstEp, src := mkFa b.nodeId srcEp, psn := psn,
          offset := o.next }
      let pkt := (dataPkt h o.block payload).onTree 1 o.tree
      let last := o.lastAt o.next
      let b :=
        { b with treeSeq := Tbl.set 0 b.treeSeq o.tree (psn + 1).toNat,
                 mcastOut := b.mcastOut ++ [(o.tree, psn, n)] }
      let b := b.modOp n fun o =>
        { o with started := true, next := o.next + 4096, allSent := last, pktsSent := o.pktsSent + 1,
                 staged := erase1 o.next o.staged }
      let b := (b.countSent o payload.length false).inject pkt
      if last then b else b.readPayload n (o.next + 4096) (o.pktLen (o.next + 4096))

/-- Send the next packet of operation `n` (R102). -/
def Block.injectOp (b : Block) (n : Nat) : Block :=
  match b.op n with
  | none => b
  | some o => if o.kind = .mcast then b.injectMcast n o else b.injectUni n o

/-- The report on a MCAST_PUT packet reaches the root's transport engine (R116). -/
def Block.mcastReport (b : Block) (tree : Nat) (key : BitVec 32) (delivered fenced : Nat) : Block :=
  match b.mcastOut.find? fun m => m.1 == tree && m.2.1 == key with
  | none => b
  | some m =>
    let n := m.2.2
    let b := { b with mcastOut := b.mcastOut.erase m }
    let b := b.modOp n fun o =>
      { o with delivered := some (match o.delivered with
                 | some d => min d delivered
                 | none => delivered),
               fenced := max o.fenced fenced, reports := o.reports + 1 }
    match b.op n with
    | some o => if o.allSent && o.reports == o.pktsSent then b.endOp n stOk else b
    | none => b

end Sys2Proof.Machine
end

