-- ==== Sys2Proof/Machine/Responder.lean ====
section
/-! DEFINITION. The receiver's side of the transport: contexts for arriving packets (R126), the
receive window (R135, R514), duplicates (R136), the error log (R137), the atomic response cache
(R138), ACKs and NAKs (R139, R141), partition checks (R119) and the target's checks (R156). -/

namespace Sys2Proof.Machine

/-! ## Answers sent -/

/-- The path to echo next, and the context with its echo taken (R100). -/
def Ctx.takeEcho (x : Ctx) : Option (Nat × Nat) × Ctx :=
  let order := (List.range 4).map fun i => (x.lastEcho + 1 + i) % 4
  match order.find? fun j => (nth none x.rxHeat j).isSome with
  | none => (none, x)
  | some j =>
    (some ((nth none x.rxHeat j).getD 0, j), { x with rxHeat := x.rxHeat.set j none, lastEcho := j })

/-- Bytes 48 and 49 of an ACK or NAK (R44). -/
def echoBytes (e : Option (Nat × Nat)) : Bytes :=
  match e with
  | some (h, j) => toLe 1 (h + 128) ++ toLe 1 j
  | none => [0, 0]

/-- The partition of the context's endpoint. -/
def Block.ctxPartition (b : Block) (x : Ctx) : Nat := (b.ep x.localEp).partition

/-- The partition of a NAK: an ABORTED context's endpoint and its binding are released (R170), and which
partition it names then is a free value (log 164). -/
def Block.nakPartition (b : Block) (x : Ctx) : Nat × Block :=
  if x.st = .aborted then b.choose 16 else (b.ctxPartition x, b)

/-- Send an ACK (R44, R139). -/
def Block.sendAck (b : Block) (c : Nat) : Block :=
  let x := b.ctx c
  let (e, y) := x.takeEcho
  let sack := (bits x.map.toNat 63 0)
  let pkt := ctlPkt 1 1 false 0 (b.ctxPartition x) x.remoteFa (mkFa b.nodeId x.localEp)
    (x.base - 1).toNat (echoBytes e ++ zeros 2 ++ toLe 4 x.remoteCtx ++ toLe 8 sack)
  (b.setCtx c { y with ackCount := 0, ackSince := none }).sendRsp c pkt

/-- Send a NAK of `kind` for `psn` (R32, R44, R141). `REFUSALS` counts every error NAK by its status
(R410; DEDUCED, log 53). -/
def Block.sendNak (b : Block) (c kind : Nat) (psn : BitVec 32) (status : Nat) : Block :=
  let x := b.ctx c
  let (e, y) := x.takeEcho
  let wait := if kind = 1 then b.obj (0x2030 + ctxLink c) 3 else 0
  let (part, b) := b.nakPartition x
  let pkt := ctlPkt 2 1 false 0 part x.remoteFa (mkFa b.nodeId x.localEp) psn.toNat
    (echoBytes e ++ toLe 1 status ++ toLe 1 kind ++ toLe 4 x.remoteCtx ++ toLe 4 wait)
  let b := (b.setCtx c y).count (521 + kind) 1
  (if kind = 2 then b.count (544 + status) 1 else b).sendRsp c pkt

/-- Send a data response for request `req` (R46, R47): its block is copied from the request. -/
def Block.sendData_ (b : Block) (c : Nat) (req : Pkt) (kind : Nat) (psn : BitVec 32) (off : Nat)
    (payload : Bytes) : Block :=
  let x := b.ctx c
  let (e, y) := x.takeEcho
  let h : DataHdr :=
    { kind := kind, cls := 1, part := b.ctxPartition x, dst := x.remoteFa,
      src := mkFa b.nodeId x.localEp, psn := psn, msn := req.msn, offset := off, echo := e,
      ctx := x.remoteCtx }
  (b.setCtx c y).sendRsp c (dataPkt h req.block payload)

/-! ## The window -/

/-- Shift the map down over its received front (R135). -/
def Ctx.slide (x : Ctx) : Ctx :=
  Nat.repeat (fun x : Ctx =>
    if x.map.getLsbD 0 then { x with map := x.map >>> 1, base := x.base + 1 } else x) 1024 x

/-- PSN `p` lies 1,024 or more behind `BASE` − 1 (R137, R138). -/
def Ctx.longPast (x : Ctx) (p : BitVec 32) : Bool :=
  let d := ahead32 (x.base - 1) p
  decide (1024 ≤ d) && decide (d < 2 ^ 31)

/-- Record the outcome of `k` PSNs from `psn` on (R135, R137, R138, R514): their bits are set, and
error ranges and atomic entries long past are retired. Copies that waited meet the window afresh. -/
def Block.record (b : Block) (c : Nat) (psn : BitVec 32) (k : Nat) : Block :=
  let x := b.ctx c
  let d := ahead32 psn x.base
  let bits_ : BitVec 1024 := BitVec.ofNat 1024 (2 ^ k - 1) <<< d
  let x : Ctx := { x with map := x.map ||| bits_ }
  let x := x.slide
  let x : Ctx := { x with errLog := x.errLog.filter fun r => !x.longPast r.last }
  { b.setCtx c x with atomics := b.atomics.filter fun a => !(a.ctx == c && x.longPast a.psn) }

/-- A packet is accepted (R135, R139): `now_` asks for an ACK at once. -/
def Block.accept (b : Block) (c : Nat) (psn : BitVec 32) (k : Nat) (now_ : Bool) : Block :=
  let b := b.record c psn k
  let b := b.modCtx c fun x =>
    { x with ackCount := x.ackCount + 1,
             ackSince := if x.ackSince.isNone then some b.now else x.ackSince }
  if now_ || decide (b.obj (0x2030 + ctxLink c) 1 ≤ (b.ctx c).ackCount) then b.sendAck c else b

/-- Add a refusal to the error log (R137); false where all four ranges are in use. -/
def Ctx.logError (x : Ctx) (psn : BitVec 32) (k status : Nat) : Bool × Ctx :=
  let last := psn + BitVec.ofNat 32 (k - 1)
  match x.errLog.getLast? with
  | some r =>
    if r.last + 1 = psn ∧ r.status = status then
      (true, { x with errLog := x.errLog.dropLast ++ [{ r with last := last }] })
    else if x.errLog.length < 4 then
      (true, { x with errLog := x.errLog ++ [⟨psn, last, status⟩] })
    else (false, x)
  | none => (true, { x with errLog := [⟨psn, last, status⟩] })

/-- A packet is refused with an error (R135, R137, R141, R156). -/
def Block.refusePkt (b : Block) (c : Nat) (p : Pkt) (k status : Nat) : Block :=
  let b := b.record c p.psn k
  let (ok, x) := (b.ctx c).logError p.psn k status
  let b := (b.setCtx c x).sendNak c 2 p.psn status
  if ok then b else b.enterError c stCapacity

/-- A packet finds no room (R141): nothing is recorded. -/
def Block.rnrPkt (b : Block) (c : Nat) (p : Pkt) : Block := b.sendNak c 1 p.psn stOk

/-- The logged refusal that covers a PSN (R136). -/
def Ctx.logged (x : Ctx) (psn : BitVec 32) : Option Nat :=
  (x.errLog.find? fun r => decide (ahead32 psn r.first ≤ ahead32 r.last r.first)).map (·.status)

/-- An ACK for a duplicate, at most one per microsecond (R136). -/
def Block.dupAck (b : Block) (c : Nat) : Block :=
  let x := b.ctx c
  let due := match x.lastDupAck with
    | some t => decide (t + 1000 ≤ b.now)
    | none => true
  if due then (b.setCtx c { x with lastDupAck := some b.now }).sendAck c else b

/-! ## Arrival -/

/-- Take packet `i` of those delivered, where it is of this format and kind. -/
def Block.takeArrival (b : Block) (i format kind : Nat) : Option (Arrival × Block) :=
  match b.delivery[i]? with
  | none => none
  | some a =>
    if a.pkt.format = format ∧ a.pkt.kind = kind then
      some (a, { b with delivery := b.delivery.eraseIdx i })
    else none

/-- The context a packet reaches (R126); one of a function in D3hot is reached by none (R220, log 123). -/
def Block.contextFor (b : Block) (p : Pkt) : Option Nat :=
  let c := bits p.ctxOf 25 0
  let x := b.ctx c
  if (x.st == .active || x.st == .error || x.st == .aborted) && x.remoteFa == p.srcFa &&
      x.localEp == faEp p.dstFa && !b.asleep x.fid then some c else none

/-- The partition checks of R119 for the endpoint a packet names. -/
def Block.fencedOut (b : Block) (p : Pkt) : Bool :=
  let e := b.ep (faEp p.dstFa)
  !(b.member p.partition b.nodeId && b.member p.partition (faNode p.srcFa) && e.live &&
    e.partition == p.partition)

/-- Record the heat of an arriving REQ on its path, once (R100). RDV_FIN names no path. -/
def Block.noteHeat (b : Block) (c : Nat) (a : Arrival) : Block :=
  let p := a.pkt
  if p.format = 0 || a.noted then b
  else b.modCtx c fun x =>
    { x with rxHeat := x.rxHeat.set (p.path % 4)
               (some (max p.heat ((nth none x.rxHeat (p.path % 4)).getD 0))) }

/-- What the window says of a packet's PSNs (R135, R514). -/
inductive WindowSays where
  | fresh | dup | ahead | inHand
  deriving DecidableEq, Repr

/-- The window check. A GET_REQ whose PSNs run past the window counts as ahead of it (log 15). -/
def Ctx.window (x : Ctx) (psn : BitVec 32) (k : Nat) : WindowSays :=
  let d := ahead32 psn x.base
  if psn ∈ x.inHand ∨ psn ∈ x.stashed then .inHand
  else if d < 1024 then
    (if x.map.getLsbD d then .dup else if 1024 < d + k then .ahead else .fresh)
  else if 2 ^ 31 ≤ d then .dup
  else .ahead

/-- A malformed packet of an acknowledged kind is answered by its connection, where that is live (R58). -/
def Block.answerBad (b : Block) (c : Nat) (p : Pkt) : Block :=
  let x := b.ctx c
  let k := reqPsns p
  if x.st ≠ .active then b
  else if x.window p.psn k = .fresh then b.refusePkt c p k stMalformed
  else b.sendNak c 2 p.psn stMalformed

/-- A REQ packet meets context `c`, which is in the cache (R125, R135, R136, R514): `fresh` handles a new packet past
the partition checks, `dup` a duplicate. -/
def Block.reqMeets (b : Block) (c : Nat) (a : Arrival) (fresh : Block → Nat → Pkt → Block)
    (dup : Block → Nat → Pkt → Block) : Block :=
  let p := a.pkt
  let b := (b.hear c).noteHeat c a
  match (b.ctx c).st with
  | .error => b.sendNak c 2 p.psn stConnError
  | .aborted => b.sendNak c 2 p.psn stRemoteAbort
  | _ =>
    let x := b.ctx c
    match x.window p.psn (reqPsns p) with
    | .inHand => b.setCtx c { x with waiting := x.waiting ++ [{ a with noted := true }] }
    | .ahead => b.sendNak c 0 x.base stOk
    | .dup =>
      match x.logged p.psn with
      | some st => (b.count 519 1).sendNak c 2 p.psn st
      | none => dup b c p
    | .fresh =>
      if b.fencedOut p then b.refusePkt c p (reqPsns p) stFenced else fresh b c p

/-- The packet that holds its PSNs goes on with `f`; where it neither holds them again nor is in hand, copies that
waited for its outcome arrive again (R514). -/
def Block.heldGoes (b : Block) (c : Nat) (p : Pkt) (f : Block → Block) : Block :=
  let mine (q : BitVec 32) : Bool := decide (ahead32 q p.psn < reqPsns p)
  let b := f (b.modCtx c fun x => { x with stashed := x.stashed.filter fun q => !mine q })
  let x := b.ctx c
  if x.inHand.contains p.psn || x.stashed.contains p.psn then b else b.unhand c p.psn (reqPsns p)

/-- A REQ packet reaches its context (R125, R126, R131, R514). A malformed one is answered before anything else: it
does not count as a packet that has arrived on its connection (R143, log 179). -/
def Block.reqArrive (b : Block) (a : Arrival) (fresh : Block → Nat → Pkt → Block)
    (dup : Block → Nat → Pkt → Block) : Block :=
  let p := a.pkt
  match b.contextFor p with
  | none => b.count 527 1
  | some c =>
    let (cached, b) := b.touchCtx c
    if !cached then b.stash a (.ctx c)
    else if a.bad then b.answerBad c p
    else if a.holds && (b.ctx c).st == .active then b.heldGoes c p fun b => b.reqMeets c a fresh dup
    else b.reqMeets c a fresh dup

/-- A duplicate of a kind that is dropped and acknowledged (R136). -/
def Block.dupDrop (b : Block) (c : Nat) (_p : Pkt) : Block := (b.count 519 1).dupAck c

/-- A RSP packet reaches its context (R119, R125, R126, R131). -/
def Block.rspArrive (b : Block) (a : Arrival) (f : Block → Nat → Pkt → Block) : Block :=
  let p := a.pkt
  match b.contextFor p with
  | none => b.count 527 1
  | some c =>
    let (cached, b) := b.touchCtx c
    if !cached then b.stash a (.ctx c)
    else
      let b := b.hear c
      if (b.ctx c).st ≠ .active then b.count 538 1
      else if b.fencedOut p then b.count 538 1
      else f b c p

/-! ## The target's checks (R156) -/

/-- What the target's checks come to. -/
inductive TargetSays where
  | fail (status : Nat)
  /-- The region entry must be filled first (R154). -/
  | wait (w : Awaits)
  | ok (key : Nat) (r : Reg)
  deriving DecidableEq, Repr

/-- Checks 2 to 5 of R156 for `n` bytes at address `a`. -/
def Block.targetCheck (b : Block) (hl key pd right a n : Nat) (aligned : Bool) :
    TargetSays × Block :=
  match b.keyCheck hl key with
  | .fail s => (.fail s, b)
  | .region k r =>
    let (cached, b) := b.touchKey hl key
    if !cached then (.wait (.region k), b)
    else if r.pd ≠ pd then (.fail stPdMismatch, b)
    else if !bit r.rights right then (.fail stAccess, b)
    else if r.covers a n && aligned then (.ok k r, b)
    else (.fail stBounds, b)

/-- The checks of a packet that waited for a translation are passed (R153, R204): its region still stands
while a deregistration waits for the packet. -/
def Block.targetPassed (b : Block) (k gen : Nat) : TargetSays × Block :=
  let r := b.reg k
  if !r.live || r.gen ≠ gen || r.unusable then (.fail stKeyInvalid, b)
  else if r.spilled then (.wait (.region k), b.fillReg k)
  else (.ok k r, b)

/-- Checks 2 to 5 of R156 for a packet that has arrived. -/
def Block.targetOf (b : Block) (a : Arrival) (hl key pd right addr n : Nat) : TargetSays × Block :=
  match a.passed with
  | some (k, gen) => b.targetPassed k gen
  | none => b.targetCheck hl key pd right addr n true

/-- A packet past the checks of region `k` waits for a fresh translation (R153, R204). -/
def Arrival.past (a : Arrival) (k : Nat) (r : Reg) : Arrival := { a with passed := some (k, r.gen) }

/-- The PD of the endpoint a packet names. -/
def Block.targetPd (b : Block) (p : Pkt) : Nat := (b.ep (faEp p.dstFa)).pd

/-- A new PUT packet (R52, R156, R159). -/
def Block.putFresh (b : Block) (a : Arrival) (c : Nat) (p : Pkt) : Block :=
  let addr := p.at_ 64 8 + p.offset
  if p.plen = 0 ∨ p.at_ 76 4 < p.offset + p.plen then b.refusePkt c p 1 stMalformed
  else
    match b.targetOf a (ctxLink c) (p.at_ 72 4) (b.targetPd p) rightWrite addr p.plen with
    | (.fail s, b) => b.refusePkt c p 1 s
    | (.wait w, b) => b.stashNew a c w
    | (.ok k r, b) =>
      if b.awaitsMap r addr p.plen then b.stashNew (a.past k r) c .translation
      else
      let (ok, b) := b.regWrite r addr p.payload
      if ok then
        let b := if r.pool then b else b.countEvent 4 r.fid none p.plen
        b.accept c p.psn 1 p.ackReq
      else b.refusePkt c p 1 stHostDmaError

/-- Send the GET_RESP packets of a range (R52, R132, R159). -/
def Block.sendGetResps (b : Block) (c : Nat) (req : Pkt) (data : Bytes) : Block :=
  (List.range ((data.length + 4095) / 4096)).foldl (fun b i =>
    b.sendData_ c req 5 (req.psn + BitVec.ofNat 32 i) (req.offset + 4096 * i)
      (slice data (4096 * i) (min 4096 (data.length - 4096 * i)))) b

/-- The outcome of a GET_REQ: a fresh one is recorded, a repeated one is counted and only answered
(R136, R410). -/
def Block.getDone (b : Block) (c : Nat) (req : Pkt) (fresh : Bool) (result : Nat × Bytes) : Block :=
  let k := reqPsns req
  let b := if fresh then b else b.count 519 1
  if result.1 ≠ stOk then
    (if fresh then b.refusePkt c req k result.1
      else b.sendNak c 2 req.psn result.1)
  else
    let b := if fresh then b.accept c req.psn k req.ackReq else b
    b.sendGetResps c req result.2

/-- Run a GET_REQ (R52, R136, R156, R159): a pool range is read at once, host memory by a read. -/
def Block.getRun (b : Block) (a : Arrival) (fresh : Bool) (c : Nat) (p : Pkt) : Block :=
  let n := getRange p
  let addr := p.at_ 64 8 + p.offset
  if !fresh && b.fencedOut p then b.getDone c p false (stFenced, [])
  else if p.plen ≠ 0 ∨ n = 0 then b.getDone c p fresh (stMalformed, [])
  else
    match b.targetCheck (ctxLink c) (p.at_ 72 4) (b.targetPd p) rightRead addr n true with
    | (.fail s, b) => b.getDone c p fresh (s, [])
    | (.wait w, b) => if fresh then b.stashNew a c w else b.stash a w
    | (.ok k r, b) =>
      if r.pool then b.getDone c p fresh (stOk, b.poolRead r (addr - r.start) n)
      else if b.canIssue r.fid r.pasid (r.dma addr) n then
        let b := b.dmaIssue r.fid r.pasid .read (r.dma addr) n 0 0 (some k)
          (.getRead c p p.offset n fresh)
        if fresh then b.modCtx c fun x =>
          { x with inHand := x.inHand ++
              (List.range (reqPsns p)).map fun i => p.psn + BitVec.ofNat 32 i }
        else b
      else b.getDone c p fresh (stHostDmaError, [])

/-! ## Atomics -/

/-- The width in bits of an ATOMIC. -/
def atomicWidth (p : Pkt) : Nat := if bit (p.at_ 76 4) 4 then 64 else 32
/-- `AOP` of an ATOMIC. -/
def atomicOp (p : Pkt) : Nat := bits (p.at_ 76 4) 3 0

/-- Entries of the atomic response cache (R138, R390). -/
def Block.atomicCacheSize (b : Block) : Nat := b.carveOf 15 * 16

/-- Host ATOMICs under way hold an entry each, so that one is free when they have executed. -/
def Block.atomicsBusy (b : Block) : Nat :=
  (b.dma.filter fun d =>
    match d.purpose with
    | .hostAtomic _ _ => true
    | .casRead _ _ _ => true
    | .casTry _ _ _ _ => true
    | _ => false).length

/-- Answer an ATOMIC with its old value (R49, R138). -/
def Block.atomicAnswer (b : Block) (c : Nat) (p : Pkt) (old : Bytes) : Block :=
  b.sendData_ c p 7 p.psn p.offset (slice old 0 8)

/-- An ATOMIC has executed (R138, R160): its cache entry is written before it is answered. -/
def Block.atomicDone (b : Block) (c : Nat) (p : Pkt) (old : Nat) : Block :=
  let bytes := toLe (atomicWidth p / 8) old
  let hold := b.obj (0x2020 + ctxLink c) 1 * 1000
  let e : AtomicEntry := { ctx := c, psn := p.psn, old := bytes, at_ := b.now, hold := hold }
  let b := { b with atomics := b.atomics ++ [e] }
  (b.accept c p.psn 1 p.ackReq).atomicAnswer c p bytes

/-- A new ATOMIC packet (R156, R160 to R162). -/
def Block.atomicFresh (b : Block) (a : Arrival) (c : Nat) (p : Pkt) : Block :=
  let addr := p.at_ 64 8
  let w := atomicWidth p
  let aop := atomicOp p
  let o0 := p.at_ 80 8
  let o1 := p.at_ 88 8
  if p.plen ≠ 0 then b.refusePkt c p 1 stMalformed
  else if 7 < aop then b.refusePkt c p 1 stBadOpcode
  else
    match b.targetCheck (ctxLink c) (p.at_ 72 4) (b.targetPd p) rightAtomic (addr + p.offset)
        (w / 8) ((addr + p.offset) % (w / 8) == 0) with
    | (.fail s, b) => b.refusePkt c p 1 s
    | (.wait w, b) => b.stashNew a c w
    | (.ok k r, b) =>
      let addr := addr + p.offset
      let room := decide (b.atomics.length + b.atomicsBusy < b.atomicCacheSize)
      if r.pool then
        if !room then b.rnrPkt c p
        else
          let (old, b) := b.poolAtomic r (addr - r.start) aop w (bit (p.at_ 76 4) 5) o0 o1
          (b.count 534 1).atomicDone c p old
      else if !(b.fn r.fid).atomicEn then b.refusePkt c p 1 stBadOpcode
      else if !b.canIssue r.fid r.pasid (r.dma addr) (w / 8) then b.refusePkt c p 1 stHostDmaError
      else if !room then b.rnrPkt c p
      else
        let m := 2 ^ w
        let issue (b : Block) (kind : DmaKind) (x y : Nat) (f : DmaPurpose) : Block :=
          b.dmaIssue r.fid r.pasid kind (r.dma addr) (w / 8) x y (some k) f
        let b := match aop with
          | 0 => (issue b .fetchAdd (o0 % m) 0 (.hostAtomic c p)).count 535 1
          | 1 => (issue b .swap (o0 % m) 0 (.hostAtomic c p)).count 535 1
          | 2 => (issue b .cas (o0 % m) (o1 % m) (.hostAtomic c p)).count 535 1
          | _ => issue b .read 0 0 (.casRead c p 0)
        b.modCtx c fun x => { x with inHand := x.inHand ++ [p.psn] }

/-- A duplicate ATOMIC (R136): answered from the cache, never executed again. -/
def Block.atomicDup (b : Block) (c : Nat) (p : Pkt) : Block :=
  match b.atomics.find? fun e => e.ctx == c && e.psn == p.psn with
  | some e => ((b.count 519 1).count 533 1).atomicAnswer c p e.old
  | none => b.count 519 1

/-! ## Answers taken at the requester -/

/-- The answers an ACK gives (R140). What the timer's expiry came before is discarded, and counted once
for the packet, as is an ACK that answers nothing and whose `ACK_PSN` is answered (R145, log 144). -/
def Block.takeAcks (b : Block) (c : Nat) (ackPsn : BitVec 32) (sack : Nat) : Block :=
  let unans := (b.ctx c).unans
  let mine := unans.filter fun u => ackAnswers u.kind && ackCovers ackPsn sack u.psn
  let late := mine.any (fun u => u.expired b.now) ||
    (mine.isEmpty && unans.all fun u => !(u.psn == ackPsn))
  let b := if late then b.count 520 1 else b
  (mine.filter fun u => !u.expired b.now).foldl (fun b u => b.answer c u.psn stOk) b

/-- The PSNs that an error NAK of `u` answers (R140, R141): its own, and where it refuses a GET_REQ
every unanswered PSN the GET_REQ carried, which is the rest of its 1 MiB block (R132; DEDUCED, log
50). -/
def refusedWith (x : Ctx) (u : Unans) : List (BitVec 32) :=
  if u.kind = 4 then
    (x.unans.filter fun v => v.op == u.op && v.off / 2 ^ 20 == u.off / 2 ^ 20 &&
      decide (u.off ≤ v.off)).map (·.psn)
  else [u.psn]

/-- The queue of the operation that a PSN belongs to (R413). -/
def Block.psnQueue (b : Block) (c : Nat) (psn : BitVec 32) : Option Nat :=
  match (b.ctx c).unans.find? fun u => u.psn == psn with
  | none => none
  | some u =>
    match b.op u.op with
    | some o => if o.kind = .pull ∨ o.kind = .fin then none else some o.q
    | none => none

/-- An error NAK answers a PSN (R140, R141). One that puts the context in ERROR ends its operation with the
first error status it received (R125). -/
def Block.nakAnswers (b : Block) (c status : Nat) (u : Unans) : Block :=
  let b := (refusedWith (b.ctx c) u).foldl (fun b psn => b.answer c psn status) b
  if status = stConnError ∨ status = stRemoteAbort then
    match b.op u.op with
    | some o => b.endOp u.op (if o.status = stOk then status else o.status)
    | none => b
  else b

/-- A NAK is taken (R141). -/
def Block.takeNak (b : Block) (c : Nat) (p : Pkt) : Block :=
  let kind := p.at_ 51 1
  let status := p.at_ 50 1
  let x := b.ctx c
  let q := b.psnQueue c p.psn
  let b := (b.count (524 + min kind 2) 1).countEvent 6 x.fid q 1
  match kind with
  | 0 => b.tryAgain c fun b => (b.modCtx c fun x => x.setTimer b.now true).resendFrom c p.psn
  | 1 =>
    let b := b.countEvent 7 x.fid q 1
    match x.unans.find? fun u => u.psn == p.psn with
    | none => b.count 520 1
    | some u =>
      if x.rnrLimit < 15 ∧ x.rnrLimit < u.rnrCount + 1 then
        (b.endOp u.op stRnrExceeded).enterError c stRnrExceeded
      else
        let us := if p.at_ 56 4 = 0 then x.rnrWait else p.at_ 56 4
        let v : Unans :=
          { u with rnrCount := u.rnrCount + 1, rnrUntil := some (b.now + us * 1000) }
        let y : Ctx := { x with unans := x.unans.map fun w => if w.psn = u.psn then v else w }
        let b := b.setCtx c (y.setTimer b.now false)
        b.modOp u.op fun o => { o with resend := o.resend.filter (fun q => !(q == u.psn)) }
  | _ =>
    let b := match x.unans.find? fun u => u.psn == p.psn with
      | none => b.count 520 1
      | some u => if u.expired b.now then b.count 520 1 else b.nakAnswers c status u
    if status = stConnError ∨ status = stRemoteAbort then b.enterError c status else b

/-- The queue whose entry an operation serves (R413): a pull serves a posted receive, a FIN none. -/
def Block.opQueue (b : Block) (o : Op) : Option Nat :=
  match o.kind with
  | .pull => (b.msg o.entry).bind fun e => e.recv.map (·.q)
  | .fin => none
  | _ => some o.q

/-- A GET_RESP is within its limits (R52): the rest of its range, and the `OP_LEN` of the copied
operation block. -/
def getRespOk (u : Unans) (p : Pkt) : Bool :=
  p.offset == u.off && p.plen == u.len && decide (p.offset + p.plen ≤ p.at_ 76 4)

/-- A GET_RESP is taken (R145, R159): its payload is written only as the answer that counts, at the local
`ADDR` + `OFFSET` (log 137). One that R52 refuses is counted with the dropped responses (log 136). It waits
for the fill of its buffer's region and for a fresh translation (R154, R204); the buffer of a pull that was
abandoned is not written (R195). -/
def Block.takeGetResp (b : Block) (c : Nat) (a : Arrival) : Block :=
  let p := a.pkt
  let echoed := b.takeEcho c (p.at_ 58 1) p.path
  match (b.ctx c).unans.find? fun u => u.psn == p.psn && u.kind == 4 with
  | none => echoed.count 520 1
  | some u =>
    if u.expired b.now then echoed.count 520 1
    else if !getRespOk u p then echoed.count 538 1
    else
      match b.op u.op with
      | none => echoed.answer c p.psn stOk
      | some o =>
        if o.closed then echoed.answer c p.psn stOk
        else
        match b.landAwaits o.hl o.lkey (o.addr + u.off) p.plen with
        | some w => (b.await w).stash a w
        | none =>
        let b := echoed
        let (ok, b) := b.localWrite o.hl o.lkey (o.addr + u.off) p.payload
        let b := if ok then b.countEvent 4 o.fid (b.opQueue o) p.plen else b.raiseHostDma (b.ctx c).home c
        let b := b.modOp u.op fun o => { o with finBytes := o.finBytes + p.plen }
        b.answer c p.psn (if ok then stOk else stHostDmaError)

/-- An ATOMIC_RESP is taken (R140). One that R52 refuses is counted with the dropped responses (log
136). -/
def Block.takeAtomicResp (b : Block) (c : Nat) (p : Pkt) : Block :=
  let b := b.takeEcho c (p.at_ 58 1) p.path
  match (b.ctx c).unans.find? fun u => u.psn == p.psn && u.kind == 6 with
  | none => b.count 520 1
  | some u =>
    if u.expired b.now then b.count 520 1
    else if p.plen ≠ 8 then b.count 538 1
    else (b.modOp u.op fun o => { o with result := p.payload }).answer c p.psn stOk

/-- An RDV_FIN is accepted (R192). One that names no outstanding SEND counts as LATE_RESPONSE (log 135). -/
def Block.finFresh (b : Block) (c : Nat) (p : Pkt) : Block :=
  let msn := BitVec.ofNat 32 (p.at_ 48 4)
  let b := match b.ops.find? fun o =>
      o.2.ctx == c && o.2.kind == .rts && o.2.started && !o.2.closed && o.2.msn == msn with
    | some o => b.endOp o.1 (p.at_ 60 1)
    | none => b.count 520 1
  b.accept c p.psn 1 true

/-- The connection an UNROUTABLE_REPORT names (R45). -/
def Block.reportedCtx (b : Block) (p : Pkt) : Option Nat :=
  (b.ctxs.find? fun e =>
    e.2.st == .active && e.2.localEp == faEp p.dstFa && e.2.remoteFa == p.at_ 52 4 &&
      e.2.remoteCtx == bits (p.at_ 56 4) 25 0 && e.2.unans.any fun u => u.psn == p.psn).map (·.1)

/-- An UNROUTABLE_REPORT is taken (R112): the path is held off, and the dropped packet is sent again
where it has not been since and a try is left. A report that names the path of the packet that the timer's
resending replaced is taken as that packet's (log 140); RDV_FIN records no path. -/
def Block.takeReport (b : Block) (c : Nat) (p : Pkt) : Block :=
  let j := p.at_ 48 1 % 4
  let b := b.modCtx c fun x =>
    { x with holdUntil := x.holdUntil.set j (some (b.now + b.obj 0x4010 5 * 1000)) }
  match (b.ctx c).unans.find? fun u => u.psn == p.psn with
  | none => b
  | some u =>
    let queued := match b.op u.op with
      | some o => o.resend.contains p.psn
      | none => true
    let past := u.before == some j || (u.kind == 0x43 && u.before.isSome)
    let b := if past then b.modCtx c fun x =>
        { x with unans := x.unans.map fun v => if v.psn = u.psn then { v with before := none } else v }
      else b
    if past || queued || u.rnrUntil.isSome || (u.kind != 0x43 && u.path != j) then b
    else b.tryAgain c fun b => b.resend u

/-! ## Multicast delivery -/

/-- What becomes of a MCAST_PUT copy at a member. -/
inductive LandSays where
  /-- What it adds to the gather (R116). -/
  | adds (delivered fenced : Nat)
  | waits (a : Arrival) (w : Awaits)
  deriving DecidableEq, Repr

/-- A MCAST_PUT copy at this member (R119, R155, R156, R220). One that waited for a translation has had its
checks. -/
def Block.mcastLand (b : Block) (a : Arrival) : LandSays × Block :=
  let p := a.pkt
  let e := b.ep (faEp p.dstFa)
  if a.passed.isNone && b.fencedOut p then (.adds 0 1, b)
  else
    let refuse (b : Block) : LandSays × Block := (.adds 0 0, b.count 537 1)
    match (if a.passed.isSome then some 0 else e.mcastKey) with
    | none => refuse b
    | some key =>
      let addr := p.at_ 64 8 + p.offset
      if p.at_ 72 4 ≠ 0 ∨ p.plen = 0 ∨ p.at_ 76 4 < p.offset + p.plen then refuse b
      else if b.asleep e.fid then refuse b
      else
        match b.targetOf a e.hl key e.pd rightWrite addr p.plen with
        | (.fail _, b) => refuse b
        | (.wait w, b) => (.waits a w, b)
        | (.ok k r, b) =>
          if b.awaitsMap r addr p.plen then (.waits (a.past k r) .translation, b)
          else
            let (ok, b) := b.regWrite r addr p.payload
            if ok then (.adds 1 0, if r.pool then b else b.countEvent 4 r.fid none p.plen) else refuse b

end Sys2Proof.Machine
end

