-- ==== Sys2Proof/Machine/HostOps.lean ====
section
/-! DEFINITION. Resets of functions and host links, and what they release (R170, R196, R208 to R212,
R270, R343, R344, R420). -/

namespace Sys2Proof.Machine

/-! ## Regions and pantries -/

/-- `KEY_QUARANTINE` of a host link in ns (R151). -/
def Block.quarantine (b : Block) (hl : Nat) : Nat := b.obj (0x2020 + hl) 2 * 1000

/-- Zero the words of a `POOL` region (R164). -/
def Block.zeroPool (b : Block) (r : Reg) : Block :=
  if r.pool then
    let mine (w : Nat) : Bool := decide (r.poolWord ≤ w) && decide (w < r.poolWord + r.length / 8)
    { b with pool := Tbl.drop mine b.pool }
  else b

/-- Free a region index: its generation advances and its quarantine starts (R151, R153, R164), and
landing bindings to it go (R155). -/
def Block.freeRegion (b : Block) (k : Nat) : Block :=
  let r := b.reg k
  let hl := k / 2 ^ 24
  let n := (b.link hl).freedCount + 1
  let b := (b.zeroPool r).modLink hl fun l => { l with freedCount := n }
  let b := b.setReg k
    { gen := if r.gen = 255 then 1 else r.gen + 1, freedAt := some (b.now, b.quarantine hl),
      freedOrder := n }
  { b with eps := Tbl.map {} (fun _ e =>
      match e.mcastKey with
      | some key =>
        if e.hl = hl ∧ bits key 23 0 = k % 2 ^ 24 ∧ bits key 31 24 = r.gen then
          { e with mcastKey := none }
        else e
      | none => e) b.eps }

/-- A context goes to FREE (R125). -/
def Block.freeCtx (b : Block) (c : Nat) : Block :=
  (b.setCtx c {}).dropStashed fun a => a.awaits == .ctx c

/-- Uninstall the context or the region pantry of a host link (R211): fills are abandoned, their
stashed packets dropped, and the entries the pantry backs are freed. A region index keeps its
generation and its quarantine (R151). -/
def Block.uninstall (b : Block) (hl : Nat) (region : Bool) : Block :=
  if region then
    let b := b.modLink hl fun l => { l with regPantry := {}, freedCount := 0 }
    let b := b.dropStashed fun a =>
      match a.awaits with
      | .region k => k / 2 ^ 24 == hl
      | _ => false
    { b with regs := Tbl.map {} (fun k r =>
        if k / 2 ^ 24 = hl then { r with live := false, spilled := false, filling := false,
                                         freedOrder := 0 } else r) b.regs }
  else
    let b := b.modLink hl fun l => { l with ctxPantry := {} }
    let mine (c : Nat) : Bool := ctxLink c == hl
    let b := { b with ctxs := Tbl.drop mine b.ctxs,
                      dma := b.dma.filter fun d =>
                        match d.purpose.context with
                        | some c => !mine c
                        | none => true }
    b.dropStashed fun a =>
      match a.awaits with
      | .ctx c => mine c
      | _ => false

/-! ## A function in reset -/

/-- Contexts of a function, with their numbers. -/
def Block.ctxsOf (b : Block) (fid : Nat) : List Nat :=
  (b.ctxs.filter fun e => e.2.fid == fid && !(e.2.st == .free)).map (·.1)

/-- Packets of a context that are in hand, with the reads that serve them (R514). -/
def Block.handRequests (b : Block) (c : Nat) : List Pkt :=
  b.dma.filterMap fun d =>
    match d.purpose with
    | .getRead x p _ _ fresh => if x = c ∧ fresh then some p else none
    | .hostAtomic x p => if x = c then some p else none
    | .casRead x p _ => if x = c then some p else none
    | .casTry x p _ _ => if x = c then some p else none
    | _ => none

/-- A REQ packet of context `c` that is past its checks and whose writes wait for a translation (R170 step
2, R204). -/
def Arrival.unwritten (a : Arrival) (c : Nat) : Bool :=
  (a.awaits == .translation || a.passed.isSome) && a.pkt.format == 1 &&
    (a.pkt.kind == 1 || a.pkt.kind == 3) && bits a.pkt.ctxOf 25 0 == c

/-- A context goes to ABORTED (R125, R170): packets in hand, and those whose writes are not issued, are
answered with REMOTE_ABORT, and a fill of it is abandoned, its stashed packets dropped (R131). -/
def Block.abortCtx (b : Block) (c : Nat) : Block :=
  let b := (b.modCtx c fun x => { x with filling := false }).dropStashed fun a => a.awaits == .ctx c
  let cut := ((b.fillStash ++ b.delivery).filter fun a => a.unwritten c).map (·.pkt)
  let b := { b with fillStash := b.fillStash.filter fun a => !a.unwritten c,
                    delivery := b.delivery.filter fun a => !a.unwritten c }
  let b := (b.handRequests c ++ cut).foldl (fun b p => b.sendNak c 2 p.psn stRemoteAbort) b
  b.leaveActive c .aborted 0

/-- Share counters scoped to a function or its queues go to event 0 and value 0 (R420); in quench counters
keep their values (R421). -/
def Block.resetCounters (b : Block) (pick : Nat → Nat → Nat → Bool) : Block :=
  let gone := b.ctrEvent.filter fun e => pick e.1 e.2.2.1 e.2.2.2
  if b.quench then b
  else gone.foldl (fun b e =>
    { b with ctrEvent := Tbl.set (0, 0, 0) b.ctrEvent e.1 (0, 0, 0),
             counters := Tbl.set 0 b.counters e.1 0 }) b

/-- Every counter of a host link's share goes to event 0 and value 0 (R420); in quench counters keep their
values (R421). -/
def Block.resetShare (b : Block) (hl : Nat) : Block :=
  let r := b.ctrRange hl
  let mine (c : Nat) : Bool := decide (r.1 ≤ c) && decide (c < r.1 + r.2)
  if b.quench then b
  else { b with ctrEvent := Tbl.drop mine b.ctrEvent, counters := Tbl.drop mine b.counters }

/-- The resources of a function are released (R170, R196, R270): its numbers stay taken until its
reset completes. -/
def Block.releaseFn (b : Block) (fid : Nat) : Block :=
  let hl := fidLink fid
  let b := (b.ctxsOf fid).foldl (fun b c => b.abortCtx c) b
  let b := { b with ops := b.ops.filter fun o => !(o.2.fid == fid) }
  let b := b.dropMctxs fid
  let regs := (b.regs.filter fun e => e.2.live && e.2.fid == fid).map (·.1)
  let b := b.dropStashed fun a =>
    match a.awaits with
    | .region k => regs.contains k
    | .translation => a.passed.isNone && (b.ep (faEp a.pkt.dstFa)).fid == fid
    | _ => false
  let b := b.unstash fun a =>
    match a.passed with
    | some x => regs.contains x.1
    | none => false
  let b := regs.foldl (fun b k => b.freeRegion k) b
  let b := b.resetCounters fun c scope t =>
    decide ((b.ctrRange hl).1 ≤ c) && decide (c < (b.ctrRange hl).1 + (b.ctrRange hl).2) &&
      (if scope = 1 then t == fidFn fid else scope == 2 && (b.queue t).fid == fid)
  { b with
    eps := Tbl.map {} (fun _ e => if e.fid = fid ∧ e.live then
        { live := false, hl := e.hl, fid := fid } else e) b.eps,
    pds := Tbl.map {} (fun _ p => if p.fid = fid ∧ p.live then
        { live := false, fid := fid } else p) b.pds,
    queues := Tbl.map {} (fun _ q => if q.fid = fid ∧ q.live then
        { live := false, hl := hl, fid := fid, ty := 3 } else q) b.queues }

/-- The pours that a function launched end with MOULD_BREAK, cause RESET (R209, R293). -/
def Block.breakFnPours (b : Block) (fid : Nat) : Block :=
  let mine := b.moulds.flatMap fun e => (e.2.pours.filter fun p => p.fid == fid).map fun p => (e.1, p)
  mine.foldl (fun b x => b.breakHere x.1 x.2 4 0) b

/-- A function-level reset of a function begins (R170, R209, R270): its requests that wait for a tag are not issued
any more, and what is issued ends before the reset completes (R210). -/
def Block.resetFn (b : Block) (fid : Nat) : Block :=
  let b := b.setFn fid { flr := true, aer := (b.fn fid).aer }
  let b := (b.breakFnPours fid).releaseFn fid
  let b := { b with dma := b.dma.filter fun d => !(d.fid == fid) || b.issued d }
  b.modLink (fidLink fid) fun l =>
    { l with noXlat := l.noXlat.filter fun r => !(r.fid == fid),
             invWait := l.invWait.filter fun r => !(r.1.fid == fid) }

/-- The reset of a function completes: the numbers it held are free again (R170, R210, R270). -/
def Block.endReset (b : Block) (fid : Nat) : Block :=
  let b := { b with
    eps := Tbl.map {} (fun _ e => if e.fid = fid ∧ !e.live then {} else e) b.eps,
    pds := Tbl.map {} (fun _ p => if p.fid = fid ∧ !p.live then {} else p) b.pds,
    queues := Tbl.map {} (fun _ q => if q.fid = fid ∧ !q.live then {} else q) b.queues }
  b.modFn fid fun f => { f with flr := false }

/-- The VFs of a host link that exist. -/
def Block.vfsOf (b : Block) (hl : Nat) : List Nat :=
  let l := b.link hl
  if l.vfEnable then (List.range l.numVfs).map (fun k => fidOf hl (k + 1)) else []

/-- What every reset of a PF does beside its functions (R209, R240, R343, R420). The pantries go when it completes
(R211). -/
def Block.resetPfParts (b : Block) (hl : Nat) : Block :=
  let b := b.lockClear hl
  let b := b.resetShare hl
  b.modLink hl fun l =>
    { l with faultVec := 0, faultVecSh := 0, rebindStatus := 0, vf := [], vfSh := [], mbxCtrl := 0,
             mbxBusy := false, mbxDone := false, mbxOverrun := false, mbxReplyLen := 0, mbxReq := [],
             mbxReply := [], doeIn := [], doeOut := [], numVfs := 0, vfEnable := false, nextPd := 1,
             mrrs := 512, tag10 := false }

/-- Transfers end without effect (R363); a mould index that one was loading returns to EMPTY. -/
def Block.abandon (b : Block) (pick : Xfer → Bool) : Block :=
  let gone := b.xfers.filter pick
  let b := { b with xfers := b.xfers.filter fun x => !pick x }
  gone.foldl (fun b x =>
    let i := x.index - 0x6000
    let st := (b.mould i).st
    if 0x6000 ≤ x.index ∧ x.index < 0x6400 ∧ (st = .loading ∨ st = .checking) then b.setMould i {}
    else b) b

/-- What waits for the mailbox of a host link is abandoned, and the transfers that its PF has opened
end (R211, R353, R363). -/
def Block.dropMailbox (b : Block) (hl : Nat) : Block :=
  let mine (r : IdpReq) : Bool := r.src == .mailbox hl
  let b := b.abandon fun x => x.principal == 4 + hl
  { b with idpQ := b.idpQ.filter (fun r => !mine r),
           loadWait := b.loadWait.filter (fun w => !mine w.2) }

/-- A PF function-level reset begins (R209): the PF and every VF. -/
def Block.resetPf (b : Block) (hl : Nat) : Block :=
  let b := (b.vfsOf hl).foldl (fun b fid => b.resetFn fid) b
  ((b.resetFn (fidOf hl 0)).resetPfParts hl).dropMailbox hl

/-- A reset of a PF completes: its pantries are uninstalled, and the resets of its functions are over (R170, R210,
R211). -/
def Block.endPf (b : Block) (hl : Nat) : Block :=
  let b := (b.uninstall hl false).uninstall hl true
  let resetting := (b.fns.filter fun e => fidLink e.1 == hl && e.2.flr).map (·.1)
  resetting.foldl (fun b fid => b.endReset fid) b

/-- A reset of a whole host link (R209): PERST_Hn_N, a hot reset, loss of the link. -/
def Block.resetLink (b : Block) (hl : Nat) (st : HlSt) : Block :=
  let b := b.resetPf hl
  let b := { b with dma := b.dma.filter fun d => !(d.hl == hl) }.endPf hl
  let b := { b with fns := Tbl.drop (fun k => fidLink k == hl) b.fns }
  b.modLink hl fun l => { l with st := st, ready := false, width := 0, rate := 0, mps := 128 }

/-- A hot reset, or what acts as one (R209, R396, R429): the link retrains at once, where its clock domain
runs on source 1 (R425). -/
def Block.hotReset (b : Block) (hl : Nat) : Block :=
  if b.present hl && (b.link hl).st != .absent then
    b.resetLink hl (if (b.link hl).perstHigh && b.domainRuns (16 + hl) then .training else .inReset)
  else b

/-! ## Translations (R204) -/

/-- An invalidation completes: with no fresh translation the range has none (R158). -/
def HostLink.invalidated (l : HostLink) (w : Xlat × Bool) : HostLink :=
  let x := w.1
  let keep := l.noXlat.filter fun r => !(r.fid == x.fid && r.pasid == x.pasid && decide (x.addr ≤ r.addr) &&
    decide (r.addr + r.len ≤ x.addr + x.len))
  { l with noXlat := if w.2 then keep else keep ++ [x] }

/-- Invalidations of host link `n` complete that no request in flight holds up (R204). -/
def Block.serveInv (b : Block) (n : Nat) : Block :=
  let busy (w : Xlat × Bool) : Bool := b.dma.any fun d => w.1.meets d.fid d.pasid d.addr d.len
  let done := (b.link n).invWait.filter fun w => !busy w
  if done.isEmpty then b
  else
    let b := b.modLink n fun l => { l with invWait := l.invWait.filter busy }
    let b := b.unstash fun a => a.awaits == .translation
    done.foldl (fun b w =>
      (b.modLink n fun l => l.invalidated w).emit (.invDone n w.1)) b

/-- VFs are reset at one instant (R209, R344): each is in reset before any of them leaves its cells. -/
def Block.resetVfs (b : Block) (fids : List Nat) : Block :=
  let mine := fids.filter fun fid => !(b.fn fid).flr
  let b := mine.foldl (fun b fid => b.modFn fid fun f => { f with flr := true }) b
  mine.foldl (fun b fid => (b.lockOrphan fid).resetFn fid) b

/-- A VF is reset (R209, R344). -/
def Block.resetVf (b : Block) (fid : Nat) : Block := b.resetVfs [fid]

end Sys2Proof.Machine
end

