-- ==== Sys2Proof/Machine/Hash.lean ====
section
/-! DEFINITION. SHA-256 and HMAC-SHA-256, which chapters 15 and 21 use by name. Their definitions
are those of FIPS 180-4 and FIPS 198-1. PRESUMED (log 24). -/

namespace Sys2Proof.Machine

/-- A big-endian field (R460). -/
def beNat (bs : Bytes) : Nat := bs.foldl (fun n b => 256 * n + b.toNat) 0

/-- `k` bytes of `n`, big-endian. -/
def toBe (k n : Nat) : Bytes := (toLe k n).reverse

/-- The bytes two strings hold, combined by exclusive or. -/
def xorBytes (a b : Bytes) : Bytes := List.zipWith (· ^^^ ·) a b

/-- The round constants. -/
def shaK : List (BitVec 32) :=
  [0x428A2F98, 0x71374491, 0xB5C0FBCF, 0xE9B5DBA5, 0x3956C25B, 0x59F111F1, 0x923F82A4, 0xAB1C5ED5,
   0xD807AA98, 0x12835B01, 0x243185BE, 0x550C7DC3, 0x72BE5D74, 0x80DEB1FE, 0x9BDC06A7, 0xC19BF174] ++
  [0xE49B69C1, 0xEFBE4786, 0x0FC19DC6, 0x240CA1CC, 0x2DE92C6F, 0x4A7484AA, 0x5CB0A9DC, 0x76F988DA,
   0x983E5152, 0xA831C66D, 0xB00327C8, 0xBF597FC7, 0xC6E00BF3, 0xD5A79147, 0x06CA6351, 0x14292967] ++
  [0x27B70A85, 0x2E1B2138, 0x4D2C6DFC, 0x53380D13, 0x650A7354, 0x766A0ABB, 0x81C2C92E, 0x92722C85,
   0xA2BFE8A1, 0xA81A664B, 0xC24B8B70, 0xC76C51A3, 0xD192E819, 0xD6990624, 0xF40E3585, 0x106AA070] ++
  [0x19A4C116, 0x1E376C08, 0x2748774C, 0x34B0BCB5, 0x391C0CB3, 0x4ED8AA4A, 0x5B9CCA4F, 0x682E6FF3,
   0x748F82EE, 0x78A5636F, 0x84C87814, 0x8CC70208, 0x90BEFFFA, 0xA4506CEB, 0xBEF9A3F7, 0xC67178F2]

/-- The working variables. -/
structure Sha where
  a : BitVec 32 := 0x6A09E667
  b : BitVec 32 := 0xBB67AE85
  c : BitVec 32 := 0x3C6EF372
  d : BitVec 32 := 0xA54FF53A
  e : BitVec 32 := 0x510E527F
  f : BitVec 32 := 0x9B05688C
  g : BitVec 32 := 0x1F83D9AB
  h : BitVec 32 := 0x5BE0CD19
  deriving DecidableEq, Repr

/-- One round. -/
def Sha.round (s : Sha) (kw : BitVec 32) : Sha :=
  let s1 := s.e.rotateRight 6 ^^^ s.e.rotateRight 11 ^^^ s.e.rotateRight 25
  let ch := (s.e &&& s.f) ^^^ (~~~s.e &&& s.g)
  let t1 := s.h + s1 + ch + kw
  let s0 := s.a.rotateRight 2 ^^^ s.a.rotateRight 13 ^^^ s.a.rotateRight 22
  let maj := (s.a &&& s.b) ^^^ (s.a &&& s.c) ^^^ (s.b &&& s.c)
  { a := t1 + (s0 + maj), b := s.a, c := s.b, d := s.c, e := s.d + t1, f := s.e, g := s.f, h := s.g }

/-- The next word of the message schedule, from the last sixteen, latest first. -/
def shaNext (w : List (BitVec 32)) : BitVec 32 :=
  let x := nth 0 w 14
  let y := nth 0 w 1
  let s0 := x.rotateRight 7 ^^^ x.rotateRight 18 ^^^ x >>> 3
  let s1 := y.rotateRight 17 ^^^ y.rotateRight 19 ^^^ y >>> 10
  nth 0 w 15 + s0 + nth 0 w 6 + s1

/-- The message schedule of a block, latest word first. -/
def shaSchedule (blk : Bytes) : List (BitVec 32) :=
  let first := (List.range 16).foldl
    (fun w i => BitVec.ofNat 32 (beNat (slice blk (4 * i) 4)) :: w) []
  Nat.repeat (fun w => shaNext w :: w) 48 first

/-- Compress one 64-byte block. -/
def Sha.block (s : Sha) (blk : Bytes) : Sha :=
  let kw := List.zipWith (· + ·) shaK (shaSchedule blk).reverse
  let t := kw.foldl Sha.round s
  { a := s.a + t.a, b := s.b + t.b, c := s.c + t.c, d := s.d + t.d, e := s.e + t.e, f := s.f + t.f,
    g := s.g + t.g, h := s.h + t.h }

/-- The message with its padding. -/
def shaPad (bs : Bytes) : Bytes :=
  bs ++ [0x80] ++ zeros ((119 - bs.length % 64) % 64) ++ toBe 8 (8 * bs.length)

/-- The words as 32 bytes. -/
def Sha.bytes (s : Sha) : Bytes :=
  [s.a, s.b, s.c, s.d, s.e, s.f, s.g, s.h].flatMap fun w => toBe 4 w.toNat

/-- SHA-256. -/
def sha256 (bs : Bytes) : Bytes :=
  let m := shaPad bs
  ((List.range (m.length / 64)).foldl (fun s i => s.block (slice m (64 * i) 64)) ({} : Sha)).bytes

/-- HMAC-SHA-256. -/
def hmac (key msg : Bytes) : Bytes :=
  let k := slice (if 64 < key.length then sha256 key else key) 0 64
  sha256 (k.map (· ^^^ 0x5C#8) ++ sha256 (k.map (· ^^^ 0x36#8) ++ msg))

end Sys2Proof.Machine
end

