-- ==== Sys2Proof/Machine/Lms.lean ====
section
/-! DEFINITION. LMS and HSS signatures (R459, R460), as IETF RFC 8554 defines them over SHA-256.
PRESUMED (log 24). -/

namespace Sys2Proof.Machine

/-- An LM-OTS parameter set: Winternitz width, chains, checksum shift. -/
structure Ots where
  code : Nat
  w : Nat
  p : Nat
  ls : Nat
  deriving DecidableEq, Repr

/-- LMOTS_SHA256_N32_W4. -/
def otsW4 : Ots := ⟨3, 4, 67, 4⟩
/-- LMOTS_SHA256_N32_W8. -/
def otsW8 : Ots := ⟨4, 8, 34, 0⟩

/-- The LM-OTS set of a type code (R459). -/
def otsOf (code : Nat) : Option Ots :=
  if code = 3 then some otsW4 else if code = 4 then some otsW8 else none

/-- The height of an LMS type code (R459). -/
def lmsHeight (code : Nat) : Option Nat :=
  if code = 6 then some 10 else if code = 7 then some 15 else if code = 8 then some 20 else none

/-- Digit `i` of a string, `w` bits wide. -/
def otsDigit (w : Nat) (s : Bytes) (i : Nat) : Nat :=
  (nth 0 s (i * w / 8)).toNat / 2 ^ (8 - (w * (i % (8 / w)) + w)) % 2 ^ w

/-- The digits of a message hash with its checksum. -/
def Ots.digits (o : Ots) (q : Bytes) : List Nat :=
  let n := 256 / o.w
  let sum := (List.range n).foldl (fun s i => s + (2 ^ o.w - 1 - otsDigit o.w q i)) 0
  let s := q ++ toBe 2 (sum * 2 ^ o.ls)
  (List.range o.p).map (otsDigit o.w s)

/-- Chain `i` of leaf `q` run on from step `from_` for `n` steps. -/
def otsChain (ident : Bytes) (q i from_ : Nat) : Nat → Bytes → Bytes
  | 0, x => x
  | n + 1, x =>
    otsChain ident q i (from_ + 1) n
      (sha256 (ident ++ toBe 4 q ++ toBe 2 i ++ toBe 1 from_ ++ x))

/-- The hash of a message under randomizer `c`. -/
def otsHash (ident : Bytes) (q : Nat) (c msg : Bytes) : Bytes :=
  sha256 (ident ++ toBe 4 q ++ toBe 2 0x8181 ++ c ++ msg)

/-- The public key that chain ends give. -/
def otsKey (ident : Bytes) (q : Nat) (ends : List Bytes) : Bytes :=
  sha256 (ident ++ toBe 4 q ++ toBe 2 0x8080 ++ ends.flatten)

/-- The public key that a one-time signature `y` under randomizer `c` leads to. -/
def Ots.candidate (o : Ots) (ident : Bytes) (q : Nat) (c y msg : Bytes) : Bytes :=
  let ds := o.digits (otsHash ident q c msg)
  otsKey ident q (ds.mapIdx fun i d =>
    otsChain ident q i d (2 ^ o.w - 1 - d) (slice y (32 * i) 32))

/-- The node of a leaf. -/
def lmsLeaf (ident : Bytes) (r : Nat) (key : Bytes) : Bytes :=
  sha256 (ident ++ toBe 4 r ++ toBe 2 0x8282 ++ key)
/-- The node over two others. -/
def lmsInner (ident : Bytes) (r : Nat) (left right : Bytes) : Bytes :=
  sha256 (ident ++ toBe 4 r ++ toBe 2 0x8383 ++ left ++ right)

/-- Climb from node `r` along a path. -/
def lmsClimb (ident : Bytes) : Nat → Bytes → List Bytes → Bytes
  | _, x, [] => x
  | r, x, s :: t =>
    lmsClimb ident (r / 2)
      (if r % 2 = 1 then lmsInner ident (r / 2) s x else lmsInner ident (r / 2) x s) t

/-- The bytes of an LMS signature that starts `sig`, by its type codes. -/
def lmsSigLen (sig : Bytes) : Option (Ots × Nat × Nat) :=
  match otsOf (beNat (slice sig 4 4)) with
  | none => none
  | some o =>
    let m := 4 + 4 + 32 + 32 * o.p
    match lmsHeight (beNat (slice sig m 4)) with
    | none => none
    | some h => some (o, h, m + 4 + 32 * h)

/-- The types are those that the use allows (R459). -/
abbrev LmsAllow := Nat → Nat → Bool

/-- Firmware, vendor, owner and life-cycle signatures. -/
def allowAny : LmsAllow := fun _ _ => true

/-- Verify an LMS signature under a 56-byte public key. -/
def lmsVerify (allow : LmsAllow) (pub msg sig : Bytes) : Bool :=
  match lmsSigLen sig with
  | none => false
  | some (o, h, n) =>
    let ident := slice pub 8 16
    let q := beNat (slice sig 0 4)
    let m := 40 + 32 * o.p
    sig.length == n && pub.length == 56 && decide (q < 2 ^ h) && allow h o.code &&
    lmsHeight (beNat (slice pub 0 4)) == some h && beNat (slice pub 4 4) == o.code &&
    (let key := o.candidate ident q (slice sig 8 32) (slice sig 40 (32 * o.p)) msg
     let path := (List.range h).map fun i => slice sig (m + 4 + 32 * i) 32
     lmsClimb ident (2 ^ h + q) (lmsLeaf ident (2 ^ h + q) key) path == slice pub 24 32)

/-- Verify what is left of an HSS signature: `k` signed keys, then the message. -/
def hssRest : Nat → Bytes → Bytes → Bytes → Bool
  | 0, pub, msg, sig => lmsVerify allowAny pub msg sig
  | k + 1, pub, msg, sig =>
    match lmsSigLen sig with
    | none => false
    | some (_, _, n) =>
      let next := slice sig n 56
      lmsVerify allowAny pub next (sig.take n) && hssRest k next msg (sig.drop (n + 56))

/-- Verify an HSS signature under a 60-byte public key of 1 to 3 levels (R459, R460). -/
def hssVerify (pub msg sig : Bytes) : Bool :=
  let levels := beNat (slice pub 0 4)
  let k := beNat (slice sig 0 4)
  pub.length == 60 && decide (1 ≤ levels) && decide (levels ≤ 3) && k + 1 == levels &&
    hssRest k (pub.drop 4) msg (sig.drop 4)

/-! ## Signing -/

/-- Private element `i` of leaf `q`, by the pseudorandom method (R467). -/
def lmsSecret (ident seed : Bytes) (q i : Nat) : Bytes :=
  sha256 (ident ++ toBe 4 q ++ toBe 2 i ++ [0xFF] ++ seed)

/-- The one-time public key of leaf `q`. -/
def Ots.leafKey (o : Ots) (ident seed : Bytes) (q : Nat) : Bytes :=
  otsKey ident q ((List.range o.p).map fun i =>
    otsChain ident q i 0 (2 ^ o.w - 1) (lmsSecret ident seed q i))

/-- Node `r`, `k` levels above the leaves, of a tree of height `h`. -/
def Ots.node (o : Ots) (ident seed : Bytes) (h : Nat) : Nat → Nat → Bytes
  | 0, r => lmsLeaf ident r (o.leafKey ident seed (r - 2 ^ h))
  | k + 1, r =>
    lmsInner ident r (o.node ident seed h k (2 * r)) (o.node ident seed h k (2 * r + 1))

/-- The root of a tree. -/
def Ots.root (o : Ots) (ident seed : Bytes) (h : Nat) : Bytes := o.node ident seed h h 1

/-- The LMS public key of a tree (R460). -/
def lmsPub (typ : Nat) (o : Ots) (ident root : Bytes) : Bytes :=
  toBe 4 typ ++ toBe 4 o.code ++ slice ident 0 16 ++ slice root 0 32

/-- The one-time signature of leaf `q` on a message under randomizer `c`. -/
def Ots.sign (o : Ots) (ident seed : Bytes) (q : Nat) (c msg : Bytes) : Bytes :=
  let ds := o.digits (otsHash ident q c msg)
  toBe 4 o.code ++ c ++
    (ds.mapIdx fun i d => otsChain ident q i 0 d (lmsSecret ident seed q i)).flatten

/-- The node beside node `r`. -/
def lmsSibling (r : Nat) : Nat := if r % 2 = 1 then r - 1 else r + 1

/-- The authentication path of leaf `q` of a tree of height `h`, from the seed. -/
def Ots.path (o : Ots) (ident seed : Bytes) (h q : Nat) : List Bytes :=
  (List.range h).map fun k => o.node ident seed h k (lmsSibling ((2 ^ h + q) / 2 ^ k))

/-- The LMS signature of leaf `q` with this authentication path (R467). -/
def lmsSign (typ : Nat) (o : Ots) (ident seed : Bytes) (path : List Bytes) (q : Nat) (c msg : Bytes) :
    Bytes :=
  toBe 4 q ++ o.sign ident seed q c msg ++ toBe 4 typ ++ path.flatten

end Sys2Proof.Machine
end

