-- ==== Sys2Proof/Machine/Secure.lean ====
section
/-! DEFINITION. The life-cycle state and secrets (R461, R462, R475), firmware images (R463 to R465),
identity (R467, R468) and the random source. -/

namespace Sys2Proof.Machine

/-! ## Life cycle -/

/-- `LIFE_CYCLE` (R461): 0 BLANK, 1 VENDOR, 2 OWNED, 3 RETIRED. -/
def Fuses.state (f : Fuses) : Nat :=
  if !f.provisioned then 0 else if f.retired then 3 else if f.epoch % 2 = 1 then 2 else 1

/-- An owner slot. -/
def Fuses.slot (f : Fuses) (k : Nat) : OwnerSlot := Tbl.get {} f.slots k

/-- The owner slot in force: the highest whose check word is set (R462). -/
def Fuses.inForce (f : Fuses) : Option Nat :=
  ((List.range 16).reverse).find? fun k => (f.slot k).check

/-- The owner slot in force, or an empty one. -/
def Fuses.owner (f : Fuses) : OwnerSlot :=
  match f.inForce with
  | some k => f.slot k
  | none => {}

/-- `LIFE_CYCLE` of the device. -/
def Block.lifeCycle (b : Block) : Nat := b.fuses.state

/-- The principals' management secret (R475): 0 M, 1 B, 2 V; none where the principal has none. -/
def Fuses.secret (f : Fuses) (p : Nat) : Option Bytes :=
  match f.state with
  | 0 => some (zeros 32)
  | 1 => some (slice (if p = 2 then f.vendorSecret else f.transferSecret) 0 32)
  | 2 => if p = 2 then some (slice f.vendorSecret 0 32) else some (slice f.owner.secret 0 32)
  | _ => none

/-- The key of principal `p` (R355). -/
def Fuses.idpKey (f : Fuses) (p : Nat) : Option Bytes :=
  (f.secret p).map fun s => hmac s [0x49, 0x44, 0x50, BitVec.ofNat 8 p]

/-- Vendor root `k` and whether it is trusted (R461, R464). -/
def Fuses.rootTrusted (f : Fuses) (pub : Bytes) : Bool :=
  let h := sha256 pub
  (h == slice f.vendorRoot0 0 32 && !bit f.rootRevoke 0) ||
    (h == slice f.vendorRoot1 0 32 && !bit f.rootRevoke 1)

/-! ## The random source -/

/-- `n` bytes of the device's random source (log 5). -/
def randomBytes (at_ n : Nat) : Bytes :=
  ((List.range ((n + 3) / 4)).flatMap fun i => toLe 4 (Config.randomWord (at_ + i)).toNat).take n

/-- Draw `n` random bytes. -/
def Block.random (b : Block) (n : Nat) : Bytes × Block :=
  (randomBytes b.fresh n, { b with fresh := b.fresh + (n + 3) / 4 })

/-! ## Identity -/

/-- The key that `storeFlash` is given for the identity cache: that of no object. -/
def cacheKey : Nat := 0

/-- `IDENTITY_PUB`: H15 with W8 (R467, R468). -/
def Fuses.identityPub (f : Fuses) : Bytes := lmsPub 7 otsW8 f.identityI f.identityRoot

/-- VDD_FUSE is within its range at the moment, as the board has it; what it is when it is next needed is
open (R462; log 169). -/
def Block.fusePower (b : Block) : Bool × Block :=
  let good := b.vddFuse
  let (k, b) := b.choose 2
  (good, { b with vddFuse := bit k 0 })

/-- Write the identity fuses, in BLANK at the first start-up with VDD_FUSE in range (R461). -/
def Block.makeIdentity (b : Block) : Block :=
  if b.fuses.state = 0 ∧ !b.fuses.identityWritten then
    match b.fusePower with
    | (false, b) => b
    | (true, b) =>
      let (i, b) := b.random 16
      let (s, b) := b.random 32
      { b with fuses := { b.fuses with identityI := i, identitySeed := s, identityWritten := true,
                                       identityRoot := otsW8.root i s 15 } }
  else b

/-- Node `r` of the identity cache as flash gives it, `k` levels above the leaves: none where it cannot
be read (R469). What flash holds is open from each start-up until the device has built it again (log 93). -/
def Block.cacheNode (b : Block) (k r : Nat) : Option Bytes :=
  let f := b.fuses
  match b.flash.cacheAt with
  | none => some (otsW8.node f.identityI f.identitySeed 15 k r)
  | some n =>
    if Config.freeNat (n + k) 2 % 2 = 1 then none
    else some ((List.range 32).map fun i => Config.freeByte ((n * 2 ^ 16 + r) * 32 + i))

/-- The authentication path of identity leaf `q` as read from the cache, where the root recomputed from
it is `IDENTITY_ROOT` (R469). -/
def Block.cachePath (b : Block) (q : Nat) : Option (List Bytes) :=
  let f := b.fuses
  let path := (List.range 15).filterMap fun k => b.cacheNode k (lmsSibling ((2 ^ 15 + q) / 2 ^ k))
  let leaf := lmsLeaf f.identityI (2 ^ 15 + q) (otsW8.leafKey f.identityI f.identitySeed q)
  if path.length = 15 ∧ lmsClimb f.identityI (2 ^ 15 + q) leaf path = f.identityRoot then some path
  else none

/-- The path that identity leaf `q` signs with (R469): where the cache does not give it, the cache is built
again from the seed; none where it cannot be written. -/
def Block.identityPath (b : Block) (q : Nat) : Option (List Bytes) × Block :=
  match b.cachePath q with
  | some path => (some path, b)
  | none =>
    match b.storeFlash cacheKey with
    | (false, b) => (none, b)
    | (true, b) =>
      (some (otsW8.path b.fuses.identityI b.fuses.identitySeed 15 q),
       { b with flash := { b.flash with cacheAt := none } })

/-- Bytes 0 to 159 of `IDENTITY_CERT` (R468); `ca` is `CA_PUB`. -/
def Fuses.certBody (f : Fuses) (ca : Bytes) (total : Nat) : Bytes :=
  toLe 4 0x44495856 ++ toLe 2 1 ++ toLe 2 total ++ f.identityPub ++ slice f.serial 0 32 ++
    toLe 2 0x6416 ++ toLe 1 0xB0 ++ zeros 1 ++ slice ca 0 60

/-- `IDENTITY_CERT` (R468). -/
def Block.identityCert (b : Block) : Bytes :=
  let n := if b.flash.caPub.isEmpty then 160 else 160 + b.flash.caSig.length
  b.fuses.certBody b.flash.caPub n ++ (if b.flash.caPub.isEmpty then [] else b.flash.caSig)

/-! ## Firmware -/

/-- `VERSION` of an image (R463). -/
def fwVersion (img : Bytes) : Nat := fld img 8 4
/-- `SVN` of an image. -/
def fwSvn (img : Bytes) : Nat := fld img 12 1
/-- `MIN_SVN_SET` of an image. -/
def fwMinSvn (img : Bytes) : Nat := fld img 13 1
/-- `CODE_LEN` of an image. -/
def fwCodeLen (img : Bytes) : Nat := fld img 16 4

/-- Check 1 of R464. -/
def fwFormed (img : Bytes) : Bool :=
  let owner := bit (fld img 6 2) 0
  fld img 0 4 == 0x57465856 && fld img 4 2 == 1 && decide (fld img 6 2 ≤ 1) &&
  decide (fwSvn img ≤ 63) && decide (fwMinSvn img ≤ fwSvn img) && fld img 14 2 == 0 &&
  fld img 28 4 == 0 && fld img 184 8 == 0 && fwCodeLen img % 64 == 0 &&
  decide (fwCodeLen img ≤ 2 ^ 21) &&
  img.length == 192 + fwCodeLen img + fld img 20 4 + fld img 24 4 &&
  (owner || (fld img 24 4 == 0 && allZero (slice img 124 60)))

/-- The vendor or owner signature of an image verifies (R464). -/
def fwSigned (img : Bytes) (pubAt sigAt sigLen : Nat) : Bool :=
  hssVerify (slice img pubAt 60) (slice img 0 192) (slice img sigAt sigLen)

/-- The owner's signature of an image verifies (R464 check 5). -/
def Fuses.ownerSigned (f : Fuses) (img : Bytes) : Bool :=
  bit (fld img 6 2) 0 && sha256 (slice img 124 60) == slice f.owner.keyHash 0 32 &&
    fwSigned img 124 (192 + fwCodeLen img + fld img 20 4) (fld img 24 4)

/-- An image verifies (R464). -/
def Fuses.fwVerifies (f : Fuses) (img : Bytes) : Bool :=
  fwFormed img && slice img 32 32 == sha256 (slice img 192 (fwCodeLen img)) &&
  f.rootTrusted (slice img 64 60) && fwSigned img 64 (192 + fwCodeLen img) (fld img 20 4) &&
  (if bit (fld img 6 2) 0 || (f.state == 2 && bit f.owner.policy 0) then f.ownerSigned img
   else true) &&
  decide (f.minSvn ≤ fwSvn img)

/-- A slot's image. -/
def Flash.slot (f : Flash) (k : Nat) : FwSlot := if k = 0 then f.slot0 else f.slot1

/-- Bytes 0 to 191 of the image the part is delivered with, without an owner's signature: free, within what
check 1 of R464 asks (log 22). -/
def shippedHeader : Bytes :=
  let h := (List.range 192).map Config.shippedByte
  let svn := min 63 (fld h 12 1)
  let code := min (fld h 16 4 / 64 * 64) (2 ^ 21)
  toLe 4 0x57465856 ++ toLe 2 1 ++ zeros 2 ++ slice h 8 4 ++ toLe 1 svn ++
    toLe 1 (min svn (fld h 13 1)) ++ zeros 2 ++ toLe 4 code ++ slice h 20 4 ++ zeros 8 ++
    slice h 32 92 ++ zeros 68

/-- The image that stands in a slot; of the shipped one, its header. -/
def FwSlot.bytes (s : FwSlot) : Bytes := if s.shipped then shippedHeader else s.image

/-- The shipped image verifies (R464): its code and its vendor's signature are good (log 22), its root is not
revoked, no policy asks for an owner's signature, and its `SVN` is at the floor. -/
def Fuses.shippedOk (f : Fuses) : Bool :=
  (f.rootRevoke == 0 || !bit f.rootRevoke (Config.shippedRoot % 2)) &&
    !(f.state == 2 && bit f.owner.policy 0) &&
    (f.minSvn == 0 || decide (f.minSvn ≤ fwSvn shippedHeader))

/-- A slot verifies (R464). -/
def Block.slotOk (b : Block) (k : Nat) : Bool :=
  let s := b.flash.slot k
  if s.shipped then b.fuses.shippedOk else !s.image.isEmpty && b.fuses.fwVerifies s.image

/-- The slot that the boot ROM runs (R465); between equal versions the choice is open. -/
def Block.bootSlot (b : Block) : Option Nat × Block :=
  let v (k : Nat) : Nat := fwVersion (b.flash.slot k).bytes
  match b.slotOk 0, b.slotOk 1 with
  | false, false => (none, b)
  | true, false => (some 0, b)
  | false, true => (some 1, b)
  | true, true =>
    if v 0 < v 1 then (some 1, b)
    else if v 1 < v 0 then (some 0, b)
    else
      let (k, b) := b.choose 2
      (some k, b)

/-- The image that runs. -/
def Block.runningImage (b : Block) : Bytes := (b.flash.slot b.flash.running).bytes

/-- Burn the security-version floor of the running image (R466). -/
def Block.burnSvn (b : Block) : Block :=
  { b with fuses := { b.fuses with minSvn := max b.fuses.minSvn (fwMinSvn b.runningImage) } }

end Sys2Proof.Machine
end

