-- ==== Sys2Proof/Machine/TimeOps.lean ====
section
/-! DEFINITION. Fabric time (R90 to R93, R501, R502). -/

namespace Sys2Proof.Machine

/-- Fabric time with `f` applied. -/
def Block.modTime (b : Block) (f : TimeSt → TimeSt) : Block := { b with time := f b.time }

/-- This node is the time root (R92). -/
def Block.isRoot (b : Block) : Bool := b.obj 0x7010 1 == 1

/-- The parent ports in order (R92, R381). -/
def Block.parentList (b : Block) : List Nat :=
  ((List.range 4).map fun i => b.obj 0x7010 2 / 256 ^ i % 256).filter (fun p => decide (p < 16))

/-- A parent port is usable: ACTIVE, its TIME flits carrying `SYNCED` (R92). -/
def Block.parentUsable (b : Block) (p : Nat) : Bool :=
  let x := b.port p
  x.st == .active && x.timeOk && x.peerSynced

/-- The first usable parent port (R92). -/
def Block.bestParent (b : Block) : Option Nat := b.parentList.find? b.parentUsable

/-- Second `sec` has had its pulse (R501). -/
def TimeSt.hasPulsed (t : TimeSt) (sec : Nat) : Bool :=
  t.pulsed.any fun r => decide (r.1 ≤ sec) && decide (sec ≤ r.2)

/-- The runs of pulsed seconds with second `sec` (R501). -/
def TimeSt.withPulse (t : TimeSt) (sec : Nat) : List (Nat × Nat) :=
  match t.pulsed with
  | (first, last) :: l => if first ≤ sec ∧ last + 1 = sec then (first, sec) :: l else (sec, sec) :: t.pulsed
  | [] => [(sec, sec)]

/-- Fabric time has reached a second that it had not reached before, or not since it was stepped back: a high
level of TIME_PPS_OUT starts, once for a second; on FOSC the second passes without one (R501). -/
def Block.pulseFor (b : Block) : Block :=
  let sec := b.time.now / 10 ^ 9
  if b.time.lastPulse < sec then
    let b' := b.modTime fun t => { t with lastPulse := sec }
    if b.domainRuns clkTime && !b.time.hasPulsed sec then
      (b'.modTime fun t => { t with pulsed := t.withPulse sec }).emit .ppsOut
    else b'
  else b

/-- Fabric time is stepped to `new`: the next snapshot of a dump falls due at the first multiple of its
period after it, where none is due already (R416). -/
def Dump.stepped (d : Dump) (old new : Nat) : Dump :=
  let u := d.period * 1000
  { d with last := if d.last / u < old / u then min d.last new else new }

/-- Move fabric time by `-offset`, in ns (R91): a slew over the next time period below 1 µs, else a
step, with the pulse of R501 for a step forward across a second; after a step back the seconds come round
again. `force` asks for a step. -/
def Block.applyOffset (b : Block) (offset : Int) (force : Bool) : Block :=
  let b := b.modTime fun t => { t with lastOffset := offset }
  if !force && decide (offset.natAbs < 1000) then
    b.modTime fun t => { t with slew := -offset, slewLeft := b.timePeriod }
  else
    let new := ((b.time.now : Int) - offset).toNat
    let b := { b with
      bwStepped := true,
      fns := Tbl.map {} (fun _ f =>
        if f.dump.on then { f with dump := f.dump.stepped b.time.now new } else f) b.fns }
    (b.pulseFor.modTime fun t =>
      { t with now := new, slew := 0, slewLeft := 0, stepped := true,
               lastPulse := min t.lastPulse (new / 10 ^ 9) }).pulseFor

/-- The offset of R91 in tenths of a ns; all stamps in ns, the asymmetry in tenths. -/
def offsetTenths (t1 t2 t3 t4 : Nat) (asym : Int) : Int :=
  let delay : Int := (((t4 : Int) - t1) - ((t3 : Int) - t2)) * 5 + asym
  ((t4 : Int) - t3) * 10 - delay

/-- The time asymmetry of port `p`, in tenths of a ns. -/
def Block.asymmetry (b : Block) (p : Nat) : Int := signed 32 (b.obj 0x7011 (p + 1))

/-- This node starts or stops being the time root (R92): the root sends `SYNCED` with stratum 0. -/
def Block.takeRoot (b : Block) : Block :=
  b.modTime fun t =>
    if b.isRoot then
      { t with synced := b.domainRuns clkTime, stratum := 0, parent := none, goodOffsets := 0 }
    else { t with synced := false, stratum := 255, parent := none, goodOffsets := 0 }

/-- Discipline fabric time to a TIME flit of the parent port (R91, R92). The first time it is a
step (R93). The offset is cut to whole ns toward zero, and `STRATUM` stays at 255 (log 134). -/
def Block.discipline (b : Block) (p t1 t2 t3 stratum : Nat) : Block :=
  let o10 := offsetTenths t1 t2 t3 b.time.now (b.asymmetry p)
  let o := o10.tdiv 10
  let good := decide (o.natAbs < 20)
  let first := !b.time.stepped
  let b := b.applyOffset o first
  b.modTime fun t =>
    let n := if good then t.goodOffsets + 1 else 0
    { t with goodOffsets := n, synced := t.synced || (decide (2 ≤ n) && b.domainRuns clkTime),
             stratum := min 255 (stratum + 1), stepped := true }

/-- Take the payload of a TIME flit (R90, R91). A partner that has had no TIME flit from here echoes
zeros, which give no delay, so nothing is disciplined to it (log 12). -/
def Block.takeTime (b : Block) (p : Nat) (pl : Bytes) : Block :=
  let t3 := fld pl 0 8
  let t2 := fld pl 8 8
  let t1 := fld pl 16 8
  let b := b.modPort p fun x =>
    { x with tRxEcho := b.time.now, tTxEcho := t3, peerSynced := bit (fld pl 24 1) 0,
             peerStratum := fld pl 25 1 }
  if b.isRoot then b
  else
    let b := if b.time.parent.isNone then b.modTime fun t => { t with parent := b.bestParent } else b
    if b.time.parent = some p ∧ b.parentUsable p ∧ ¬(t1 = 0 ∧ t2 = 0) then
      b.discipline p t1 t2 t3 (fld pl 25 1)
    else b

/-- Payload of a TIME flit (R90). -/
def Block.timePayload (b : Block) (p : Nat) : Bytes :=
  let x := b.port p
  toLe 8 b.time.now ++ toLe 8 x.tRxEcho ++ toLe 8 x.tTxEcho ++
    toLe 1 (b2n b.time.synced + b2n b.isRoot * 2) ++ toLe 1 b.time.stratum

/-- Time passes by 1 ns: what is left of a slew is spread over what is left of its period (R91,
log 13). Time on FOSC is not synchronised (R425). -/
def Block.tickTime (b : Block) : Block :=
  let c := b.clk clkTime
  if c.held || !b.clockOn clkTime || b.phase == .held || b.phase == .dead then b
  else
    let b := b.modTime fun t =>
      let step := if t.slewLeft = 0 then 0 else t.slew.tdiv t.slewLeft
      { t with now := ((t.now : Int) + 1 + step).toNat, slew := t.slew - step,
               slewLeft := t.slewLeft - 1, synced := t.synced && c.cur == 1 }
    if b.domainRuns clkTime then b else b.pulseFor

end Sys2Proof.Machine
end

