-- ==== Sys2Proof/Machine/PowerOps.lean ====
section
/-! DEFINITION. Switched power domains (R446 to R448), the wipe and start-up (R453 to R456), chip
reset (R450), quench (R404) and the retirement of a region (R402). -/

namespace Sys2Proof.Machine

/-! ## Switched domains (R446) -/

def elSerdes (p : Nat) : Nat := 1 + p
def elLinkEngine (p : Nat) : Nat := 17 + p
def elLcPll (k : Nat) : Nat := 33 + k
def elCluster (r c : Nat) : Nat := 41 + 10 * r + c
def elSram (g : Nat) : Nat := 81 + g
def elPhy (n : Nat) : Nat := 129 + n
def elHl (n : Nat) : Nat := 133 + n
def elMnet : Nat := 139
def elDebug : Nat := 142
def elBridge (k : Nat) : Nat := 143 + k

/-- The domain is on and out of reset. -/
def Block.domOn (b : Block) (e : Nat) : Bool := (b.dom e).st == .on

/-- Domains that ramp. -/
def Block.ramping (b : Block) : Nat := Tbl.count (fun _ d => d.st == .ramping) b.pwr

/-- The switched domains that a block's registers lie in, one of which holds them up (R391, R446): those of the
lane-die infrastructure lie with its two LC PLLs; none for what is never switched. -/
def blkDoms (blk : Nat) : List Nat :=
  if blk < 40 then [41 + blk]
  else if blk < 56 then [elLinkEngine (blk - 40)]
  else if blk < 60 then [elLcPll (2 * (blk - 56)), elLcPll (2 * (blk - 56) + 1)]
  else if blk < 108 then [elSram (blk - 60)]
  else if blk < 112 then [elHl (blk - 108)]
  else if blk < 116 then [elPhy (blk - 112)]
  else if blk < 122 then [elBridge (blk - 116)]
  else if blk = blkMnet then [elMnet]
  else if blk = 133 then [elDebug]
  else []

/-- The clock domain that a block runs on, where it is one that can be gated (R425, R431). -/
def blkClk (blk : Nat) : Option Nat :=
  if 40 ≤ blk ∧ blk < 56 then some (blk - 40)
  else if 108 ≤ blk ∧ blk < 116 then some (16 + (blk - 108) % 4)
  else if blk = blkMnet then some 21
  else if blk = 133 then some 23
  else none

/-- The block is gated, off or ramping (R224, R447). -/
def Block.blkGated (b : Block) (blk : Nat) : Bool :=
  (!(blkDoms blk).isEmpty && !(blkDoms blk).any b.domOn) ||
  (match blkClk blk with
    | some d => (b.clk d).gated
    | none => false)

/-- Switch a domain on: it ramps, or waits for one of the eight slots (R447). -/
def Block.switchOn (b : Block) (e : Nat) : Block :=
  b.modDom e fun d =>
    match d.st with
    | .on => { d with quietAsked := none }
    | .ramping => { d with want := none }
    | .off => if b.ramping < 8 then { d with st := .ramping, want := none }
              else { d with want := some true }

/-- Ask a domain for quiescence so that it can be switched off (R447 step 1); one that ramps is asked
when its ramp ends. -/
def Block.askOff (b : Block) (e : Nat) (busy : Bool) : Block :=
  b.modDom e fun d =>
    match d.st with
    | .on => if d.quietAsked.isSome then d else { d with quietAsked := some b.now, busy := busy }
    | .ramping => { d with want := some false, busy := busy }
    | .off => { d with want := none }

/-- The block whose fault registers go with domain `e` (R391, R446, R447): those of the lane-die infrastructure
with the last of its two domains. Those of a hub cluster are kept for what R402 records after its region has been
retired (log 168). -/
def Block.domBlk (b : Block) (e : Nat) : Option Nat :=
  (List.range' 40 96).find? fun blk =>
    (blkDoms blk).contains e && (blkDoms blk).all fun f => f == e || !b.domOn f

/-- The masks of a block return to their reset values, both copies, and a strobe that has not reached it is
discarded (R228). -/
def Block.resetMasks (b : Block) (blk : Nat) : Block :=
  { b with react := Tbl.drop (fun k => k / 64 == blk) b.react,
           reactSh := Tbl.drop (fun k => k / 64 == blk) b.reactSh,
           reactDue := b.reactDue.filter fun k => k != blk }

/-- A domain's switch opens, and the contents of its registers are lost (R447 step 2). -/
def Block.cutDom (b : Block) (e : Nat) : Block :=
  let b := b.setDom e { offAt := b.now }
  match b.domBlk e with
  | some blk => (b.setFlt blk {}).resetMasks blk
  | none => b

/-- A domain comes on without a ramp of its own: part of a start-up. -/
def Block.domUp (b : Block) (e : Nat) : Block := b.setDom e { st := .on }

/-- Domains that wait for a slot take those free, lowest first (R447). -/
def Block.serveRamps (b : Block) : Block :=
  let waiting := (b.pwr.filter fun e => e.2.st == .off && e.2.want == some true).map (·.1)
  waiting.foldl (fun b e => if b.ramping < 8 then b.switchOn e else b) b

/-- Port `p` is enabled (R375), and the device is not RETIRED (R481). -/
def Block.portEnabled (b : Block) (p : Nat) : Bool := b.portObj p 1 == 1 && b.lifeCycle != 3

/-- Power for an enabled port: its lane die's bridge first, which a request to switch it off leaves on, then its
own domains (R448). -/
def Block.powerPort (b : Block) (p : Nat) : Block :=
  let b := b.switchOn (elBridge (p / 4))
  if !b.domOn (elBridge (p / 4)) then b
  else ((b.switchOn (elLcPll (p / 2))).switchOn (elSerdes p)).switchOn (elLinkEngine p)

/-- Select source 1 for domain `d`, ungated (R425). -/
def Block.clkRun (b : Block) (d : Nat) : Block :=
  b.modClk d fun c => { c with srcSh := 1, src := 1, cur := 1, gateSh := false, gate := false,
                               gated := false, gateAsked := none, switching := false, queued := none }

/-- PLL `k` is locked. -/
def Block.locked (b : Block) (k : Nat) : Bool := Tbl.get false b.plls k
/-- Set the lock of PLL `k`. -/
def Block.setLocked (b : Block) (k : Nat) (v : Bool) : Block :=
  { b with plls := Tbl.set false b.plls k v }

/-- The device may move clock domain `d` to source 1 by itself: it gated the domain, or no one has
moved it off that source (R432, R455). -/
def Block.clkMay (b : Block) (d : Nat) : Bool :=
  let c := b.clk d
  !c.held && !c.gate && !c.switching && (c.gated || c.cur == 1)

/-- Enabled ports whose domains are on and whose PLL is locked leave DISABLED (R83, R425). -/
def Block.startPorts (b : Block) : Block :=
  (List.range 16).foldl (fun b p =>
    if (b.port p).st = .disabled ∧ b.portEnabled p ∧ b.domOn (elSerdes p) ∧
        b.domOn (elLinkEngine p) ∧ b.domOn (elLcPll (p / 2)) ∧ b.locked (p / 2) ∧ b.clkMay p then
      (b.clkRun p).enterTraining p
    else b) b

/-- A present host link out of PERST_Hn_N leaves Detect, where its clock domain runs on source 1 (R212,
R425). -/
def Block.leaveDetect (b : Block) (n : Nat) : Block :=
  if b.present n && (b.link n).st == .inReset && (b.link n).perstHigh && b.domainRuns (16 + n) then
    b.modLink n fun l => { l with st := .training }
  else b

/-- Present host links whose domains are on and whose PLL is locked leave Detect (R212, R455). -/
def Block.startLinks (b : Block) : Block :=
  (List.range 4).foldl (fun b n =>
    let b := b.leaveDetect n
    if b.present n ∧ b.lifeCycle ≠ 3 ∧ (b.link n).st = .absent ∧ b.domOn (elPhy n) ∧
        b.domOn (elHl n) ∧ b.locked (8 + n) ∧ b.clkMay (16 + n) then
      (b.clkRun (16 + n)).modLink n fun l => { l with st := if l.perstHigh then .training else .inReset }
    else b) b

/-! ## Quench -/

/-- A port of a device in quench (R83, R404): it sends OOS until the chip reset, and a change of mode under way
has failed. -/
def Port.quenched (x : Port) (now : Nat) : Port :=
  { x with st := .oos, since := now, pauseOwed := none, pauseTarget := none,
           changeResult := if x.changeResult = 1 then 5 else x.changeResult }

/-- Quench begins (R404): no new work, OOS on every port, the pin low. -/
def Block.quenchNow (b : Block) (code : Nat) : Block :=
  (List.range 16).foldl (fun b p => b.modPort p fun x => x.quenched b.now)
    { b with quench := true, quenchCause := code, fatalLow := true }

/-- The device enters quench (R403, R404). -/
def Block.enterQuench (b : Block) (code : Nat) : Block :=
  if b.quench ∨ b.phase = .held ∨ b.phase = .dead then b else b.quenchNow code

/-! ## The carve at start-up (R390, R400) -/

/-- Total SRAM in KiB. -/
def sramKiB : Nat := 196608

/-- KiB of the seventeen uses. -/
def carveSum (v : List Nat) : Nat := v.foldl (· + ·) 0

/-- Lower use `e` (counted from 1) to `floor`, where the uses exceed `have_`. -/
def carveCut (have_ : Nat) (v : List Nat) (e floor : Nat) : List Nat :=
  let excess := carveSum v - have_
  v.set (e - 1) (max (nth 0 v (e - 1) - excess) (min floor (nth 0 v (e - 1))))

/-- One round of R400 step 6: 128 KiB from each table in turn. -/
def carveRound (have_ : Nat) (v : List Nat) : List Nat :=
  [4, 8, 15, 7, 6, 12, 11, 3].foldl (fun v e =>
    let now_ := nth 0 v (e - 1)
    let floor := (nth (0, none) carveRows (e - 1)).1 / 2
    if have_ < carveSum v then v.set (e - 1) (max (now_ - 128) (min floor now_)) else v) v

/-- The active carve for `have_` KiB of SRAM in service, or none where what must stay does not fit. -/
def fitCarve (have_ : Nat) (v : List Nat) : Option (List Nat) :=
  let v := [(16, 1024), (5, 8192), (10, 2048), (9, 0)].foldl
    (fun v c => carveCut have_ v c.1 c.2) v
  let v := Nat.repeat (carveRound have_) 128 v
  if carveSum v ≤ have_ then some v else none

/-- The key of bank `k` of group `g`; 32 is the spare bank. -/
def bankKey (g k : Nat) : Nat := g * 33 + k

/-- The group's spare bank is in use: a bank of it has been retired. -/
def Block.spareUsed (b : Block) (g : Nat) : Bool :=
  (List.range 33).any fun k => (b.bank (bankKey g k)).retired

/-- A spare row is taken for row `row` of bank `k` (R398 stage 1). -/
def Block.takeRow (b : Block) (g k row : Nat) : Block :=
  let x := b.bank (bankKey g k)
  let b := b.setBank (bankKey g k)
    { x with spareRows := x.spareRows - 1, rowErrors := Tbl.set 0 x.rowErrors row 0 }
  let b := (b.raise (blkSram g) 8 k (k + row * 2 ^ 16)).count (1024 + 8 * g + 3) 1
  { b with rowsUsed := b.rowsUsed + 1 }

/-- Bank `k` leaves service (R398 stage 2). -/
def Block.dropBank (b : Block) (g k : Nat) : Block :=
  let x := b.bank (bankKey g k)
  let b := b.setBank (bankKey g k) { x with retired := true, poisoned := [] }
  let b := (b.raise (blkSram g) 9 k k).count (1024 + 8 * g + 4) 1
  { b with banksRetired := b.banksRetired + 1 }

/-- A bank's capacity is lost for good: CAPACITY_LOST and CAPACITY_DEGRADED (R398 stage 4). -/
def Block.capacityGone (b : Block) (g k : Nat) : Block :=
  let b := b.raise (blkSram g) 10 k k
  let b := { b with carveLost := b.carveLost + 128,
                    degraded := if g ∈ b.degraded then b.degraded else b.degraded ++ [g] }
  b.eventAll 8 (toLe 1 1 ++ toLe 1 g)

/-- The KiB of the seventeen uses that the stored carve asks for (R388). -/
def Block.carveAsked (b : Block) : List Nat := (List.range 17).map fun k => b.obj 0xB000 (k + 1)

/-- The self-check of start-up meets a row that fails (R453): it takes a spare, or its bank leaves
service, for the spare bank, for 128 KiB of what the stored carve leaves free, or for good. -/
def Block.selfSpare (b : Block) (e : Nat × Nat) : Block :=
  let g := e.1 / 33
  let k := e.1 % 33
  let x := b.bank e.1
  if x.retired then b
  else if 0 < x.spareRows then b.takeRow g k e.2
  else
    let spare := !b.spareUsed g
    let b := b.dropBank g k
    if spare then b
    else if b.carveFreeUsed + 128 + carveSum b.carveAsked ≤ sramKiB then
      { b with carveFreeUsed := b.carveFreeUsed + 128 }
    else b.capacityGone g k

/-- The self-check of every row (R453): which rows fail is the part's (log 25). -/
def Block.selfCheck (b : Block) : Block := b.weakRows.foldl (fun b e => b.selfSpare e) b

/-- Apply the stored carve to the SRAM in service (R390, R400). -/
def Block.applyCarve (b : Block) : Block :=
  let left := sramKiB - b.carveFreeUsed - b.carveLost
  match fitCarve left b.carveAsked with
  | some v =>
    (v.mapIdx fun k n => (k + 1, n)).foldl (fun b e => b.setCarve e.1 e.2)
      (b.setCarve 18 (left - carveSum v))
  | none => b.enterQuench (srcCode (blkSram (nth 0 b.degraded 0)) 10 noUnit)

/-- The keys of the persistent objects that flash holds a value of: `FENCE_q` and `FLT_REACT_b` count
whole. -/
def Flash.stored (f : Flash) : List Nat :=
  Tbl.keys f.objects ++ f.fenceStored.map (fun q => objKey (0x5000 + q) 0) ++
    f.reactStored.map fun blk => objKey (0x8200 + blk) 0

/-- A persistent object returns to its default, and the change is counted (R348, R390). -/
def Block.defaultKey (b : Block) (key : Nat) : Block :=
  let idx := key / 256
  let b := { b with defaulted := b.defaulted + 1, defaultedLast := key,
                    flash := { b.flash with bad := b.flash.bad.filter fun e => e != key } }
  let f := b.flash
  if 0x5000 ≤ idx ∧ idx < 0x5010 then
    let mine (e : Nat) : Bool := e / 262144 == idx - 0x5000
    { b with fences := Tbl.drop mine b.fences,
             flash := { f with fences := Tbl.drop mine f.fences,
                               fenceStored := f.fenceStored.filter fun q => q != idx - 0x5000 } }
  else if 0x8200 ≤ idx ∧ idx < 0x82F0 then
    let mine (e : Nat) : Bool := e / 64 == idx - 0x8200
    { b with react := Tbl.drop mine b.react, reactSh := Tbl.drop mine b.reactSh,
             flash := { f with react := Tbl.drop mine f.react,
                               reactStored := f.reactStored.filter fun q => q != idx - 0x8200 } }
  else
    { b.setObj idx (key % 256) (objDefault idx (key % 256)) with
      flash := { f with objects := erase1 key f.objects } }

/-- Explicit quotas of the present host links that exceed a new total return to AUTO (R366, R390):
`Q_RNR` and `Q_STAGING`. -/
def Block.fitQuotas (b : Block) : Block :=
  let ns := (List.range 4).filter b.present
  [13, 15].foldl (fun b k =>
    let sum := ns.foldl (fun s n => s + b.quotaCount n k) 0
    if b.quotaTotal k < sum then
      ns.foldl (fun b n =>
        if b.obj (0x2010 + n) k = quotaAuto k then b else b.defaultKey (objKey (0x2010 + n) k)) b
    else b) b

/-- The quota whose host-link values a shrunken use must hold (R213, R399), and the bytes of an entry. -/
def useQuota (use : Nat) : Option (Nat × Nat) :=
  match use with
  | 4 => some (6, 256)
  | 8 => some (8, 32)
  | 6 => some (10, 64)
  | 7 => some (11, 64)
  | 12 => some (12, 64)
  | 10 => some (13, 64)
  | 11 => some (14, 8)
  | 5 => some (15, 1024)
  | _ => none

/-- The values of quota `k` by host link, an absent one counting nothing. -/
def Block.quotaVals (b : Block) (k : Nat) : List (Nat × Nat) :=
  (List.range 4).map fun h => (h, if b.present h then b.quotaCount h k else 0)

/-- Lower the largest host link's value of quota `k`, as often as it takes for the sum to fit `total`, and no
more than so many times (R399). -/
def Block.lowerQuota (b : Block) (k total : Nat) : Nat → Block
  | 0 => b
  | n + 1 =>
    let vals := b.quotaVals k
    let sum := (vals.map (·.2)).sum
    if sum ≤ total then b
    else
      let top := vals.foldl (fun a v => if a.2 < v.2 then v else a) (0, 0)
      let next := vals.foldl (fun a v => if v.1 = top.1 then a else max a v.2) 0
      let new := max (top.2 - (sum - total)) (min next (top.2 - 1))
      Block.lowerQuota (b.setObj (0x2010 + top.1) k new) k total n

/-- The sum of quota `k` is brought down to `total`, the largest value first (R399): each time by one at
least. -/
def Block.fitQuota (b : Block) (k total : Nat) : Block :=
  b.lowerQuota k total (((b.quotaVals k).map (·.2)).sum - total)

/-- The carve uses that host-link quotas are to fit into. -/
def quotaUses : List Nat := [4, 5, 6, 7, 8, 10, 11, 12]

/-- Host-link values whose sum no longer fits what start-up has left of a carve use are lowered (R399,
R400). -/
def Block.fitUses (b : Block) : Block :=
  quotaUses.foldl (fun b use =>
    match useQuota use with
    | some (k, size) => b.fitQuota k (b.carveOf use * 1024 / size)
    | none => b) b

/-! ## Regions -/

/-- A region's homes move to the live ones (R22, R402 step 3): `set` gives the new home. -/
def rehome (r : Nat) (homeOf : α → Nat) (set : α → Nat → α) (dest : Nat → Nat) (k : Nat) (v : α) : α :=
  if homeOf v = r then set v (dest k) else v

/-- A unicast packet for a connection that is homed in region `r`. -/
def Block.homedIn (b : Block) (r : Nat) (a : Arrival) : Bool :=
  let x := b.ctx (bits a.pkt.ctxOf 25 0)
  !a.pkt.priv && a.pkt.mode == 0 && x.st != .free && x.home == r

/-! ### Packets lost with a cluster -/

/-- Packet `i` of an output queue leaves it without being sent. -/
def Block.dropAt (b : Block) (k i : Nat) : Block :=
  match (queueOf b.outQ k)[i]? with
  | none => b
  | some x =>
    let b := ({ b with outQ := Tbl.set [] b.outQ k ((queueOf b.outQ k).eraseIdx i) } : Block).leave x.src
      x.pkt.size
    b.throttle (k / 16) (k % 16)

/-- Packets on their way to an output port are lost with a crossbar cluster: which of them it holds is open
(R396, R402, log 28). -/
def Block.loseQueued (b : Block) : Block :=
  (Tbl.keys b.outQ).foldl (fun b k =>
    (List.range (queueOf b.outQ k).length).reverse.foldl (fun b i =>
      let (c, b) := b.choose 2
      if c = 1 then b.dropAt k i else b) b) b

/-- Packets that wait at the injection point are lost with a transport cluster: which of them it holds is open
(R396, R402, log 28). -/
def Block.loseInjected (b : Block) : Block :=
  let n := b.fresh
  let keep (l : List Pkt) : List Pkt :=
    ((l.mapIdx fun i p => (i, p)).filter fun e => Config.freeNat (n + e.1) 2 % 2 == 0).map (·.2)
  { b with injQ := Tbl.map [] (fun _ l => keep l) b.injQ,
           fresh := n + b.injQ.foldl (fun m e => max m e.2.length) 0 }

/-- Region `r` is live and not the last live one (R402). -/
def Block.mayRetire (b : Block) (r : Nat) : Bool := bit b.regions r && decide (1 < b.liveRegions.length)

/-- Region `r` retires (R402): every pour homed there breaks, those that wait among them; packets held in it are
dropped, which of those in the queues of the router is open (log 28); its clusters are asked for quiescence, to be
switched off (R447). The last live region never does. -/
def Block.retireRegion (b : Block) (r : Nat) : Block :=
  if !b.mayRetire r then b
  else
    let mine := b.moulds.flatMap fun e =>
      (e.2.pours.filter fun p => p.home == r).map fun p => (e.1, p)
    let b := mine.foldl (fun b x => b.breakHere x.1 x.2 5 0) b
    let b := b.loseQueued.loseInjected
    let b := { b with regions := b.regions - 2 ^ r,
                      delivery := b.delivery.filter (fun a => !b.homedIn r a),
                      fillStash := b.fillStash.filter (fun a => !b.homedIn r a) }
    let rs := b.liveRegions
    let n := b.fresh
    let dest (k : Nat) : Nat := nth 0 rs (Config.freeNat (n + k) rs.length % rs.length)
    let b := { b with
      fresh := n + 2 ^ 26,
      gov := { b.gov with tempo := b.gov.tempo.set r 0, counts := b.gov.counts.set r [] },
      ctxs := Tbl.map {} (fun k c => rehome r Ctx.home
        (fun c h => { c with home := h, stashed := [], waiting := [] }) dest k c) b.ctxs,
      queues := Tbl.map {} (rehome r Queue.home (fun q h => { q with home := h }) dest) b.queues,
      mctxs := Tbl.map {} (rehome r Mctx.home (fun m h => { m with home := h }) dest) b.mctxs }
    let b := (List.range 10).foldl (fun b c => b.askOff (elCluster r c) false) b
    let b := b.count 1409 1
    b.eventAll 8 (toLe 1 0 ++ toLe 1 r)

/-! ## Units (R401) -/

/-- The armed pours of mould engine `n` break with cause ENGINE (R293, R396, R401). -/
def Block.breakEngine (b : Block) (n : Nat) : Block :=
  let mine := b.moulds.flatMap fun e =>
    (e.2.pours.filter fun p => p.armed && p.engine == n).map fun p => (e.1, p)
  mine.foldl (fun b x => b.breakHere x.1 x.2 10 0) b

/-- A unit of a region cluster is retired; a cluster with no unit left takes its region along. The pours of
a mould engine break, as a block reset would break them. -/
def Block.retireUnit (b : Block) (blk unit : Nat) : Block :=
  let f := b.fltOf blk
  let n := clusterUnits (blk % 10)
  if 40 ≤ blk ∨ n ≤ unit ∨ unit ∈ f.retiredUnits then b
  else
    let b := b.setFlt blk { f with retiredUnits := f.retiredUnits ++ [unit] }
    let b := (b.count 1408 1).raise blk 5 unit unit
    if ((List.range n).all fun u => (b.fltOf blk).retiredUnits.contains u) &&
        decide (1 < b.liveRegions.length) then b.retireRegion (blk / 10)
    else if blk % 10 = 6 then b.breakEngine (blk / 10 * 4 + unit)
    else b

/-! ## Start-up -/

/-- What every package reset leaves (R449, R453): fuses, flash, latched straps, the power-on latch,
what the AON island recorded, and the levels on the pins. -/
def Block.wiped (b : Block) : Block :=
  { fuses := b.fuses, flash := b.flash, vddFuse := b.vddFuse, bifStrap := b.bifStrap,
    bootMode := b.bootMode, testMode := b.testMode, resetCause := b.resetCause,
    fromPowerOn := b.fromPowerOn, earlyResets := b.earlyResets, weakRows := b.weakRows, luck := b.luck,
    trstHigh := b.trstHigh, porstLow := b.porstLow, railHold := b.railHold,
    links := Tbl.map {} (fun _ l => { perstHigh := l.perstHigh }) b.links, out := b.out,
    now := b.now, fresh := b.fresh }

/-- A stored value that differs from its object's default. -/
def loadedValue (e : Nat × Option Nat) : Option (Nat × Nat) :=
  match e.2 with
  | some v => if v = objDefault (e.1 / 256) (e.1 % 256) then none else some (e.1, v)
  | none => none

/-- Load the persistent objects; a store written under another state or epoch is erased (R348,
R480), and a value that fails its flash check is replaced by the default (R348). -/
def Block.loadStore (b : Block) : Block :=
  let f := b.flash
  let f : Flash := if f.storeState = b.fuses.state ∧ f.storeEpoch = b.fuses.epoch then f
    else { f with objects := [], fences := [], fenceStored := [], react := [], reactStored := [],
                  bad := [], storeState := b.fuses.state, storeEpoch := b.fuses.epoch }
  let b := { b with flash := f, dict := f.objects.filterMap loadedValue, fences := f.fences,
                    react := f.react, reactSh := f.react,
                    loaded := ⟨f.objects, f.fences, f.react⟩ }
  (f.stored.filter fun k => f.bad.contains k).foldl
    (fun b k => (b.defaultKey k).raise blkSvc 9 noUnit k) b

/-- Sequence state after a restart: `H` at the stored floor and the map full (R357). -/
def Block.restartSeqs (b : Block) : Block :=
  { b with seqs := (List.range 3).foldl (fun t p =>
      let n := nth 0 b.flash.floors p
      Tbl.set {} t p { high := n, seen := (List.range (min n 64)).map (n - 1 - ·) }) [] }

/-- What the part and its board will do next is taken freely (log 166). -/
def Block.turnLuck (b : Block) (f : Luck → Nat → Luck) : Block :=
  let (k, b) := b.choose (2 ^ 64)
  { b with luck := f b.luck k }

/-- A domain is calibrated at its power-up (R503): the LC PLLs of lane die n, or a PCIe PHY quad, whose
resistor is missing or out of range. -/
def Block.calibrate (b : Block) (e : Nat) : Block :=
  let bad := b.luck.rext
  if 33 ≤ e ∧ e < 41 ∧ bit bad ((e - 33) / 2) then b.raise (56 + (e - 33) / 2) 8 noUnit (e - 33)
  else if 129 ≤ e ∧ e < 133 ∧ bit bad 4 then b.raise (112 + (e - 129)) 8 noUnit 0
  else b

/-- The board's resistors are whatever they are by the next calibration. -/
def Block.turnBoard (b : Block) : Block := b.turnLuck fun l k => { l with rext := k % 32 }

/-- The block and unit of crucible lane `i` of the device. -/
def crucibleLane (i : Nat) : Nat × Nat := (blkCluster (i / 16) (7 + i / 8 % 2), i % 8)

/-- The crucible-lane self-check of start-up (R455 step 10): a lane that fails is retired (R393, R401). -/
def Block.laneCheck (b : Block) : Block :=
  ((bitList 64 b.luck.lanes).foldl (fun b i =>
    let l := crucibleLane i
    (b.raise l.1 8 l.2 l.2).retireUnit l.1 l.2) b).turnLuck fun l k => { l with lanes := k }

/-- Steps 9 and 10 of R455: the persistent objects, the hub clusters and the self-checks. -/
def Block.selfChecks (b : Block) : Block :=
  let b := { b.loadStore with phase := .running }
  let b := (List.range 40).foldl (fun b c => b.domUp (41 + c)) b
  let b := ((b.selfCheck).applyCarve).laneCheck
  let code := if b.obj 0x2000 0 = auto8 then b.bifStrap else b.obj 0x2000 0
  { b with bifCode := code, plcaId := b.obj 0x1020 1, plcaCount := b.obj 0x1020 2,
           bwWindow := b.obj 0x9010 0, bwNext := none }

/-- A present host link is powered, calibrated and clocked (R455 step 11). -/
def Block.bringLink (b : Block) (n : Nat) : Block :=
  if b.lifeCycle = 3 then b
  else if b.present n then
    (((((b.domUp (elPhy n)).domUp (elHl n)).calibrate (elPhy n)).setLocked (8 + n) true).clkRun
      (16 + n)).modLink n fun l => { l with clkreqLow := true }
  else b.modClk (16 + n) fun c => { c with gated := true }

/-- An LC PLL is powered and calibrated once for its two ports (R455 step 12). -/
def Block.bringPll (b : Block) (k : Nat) : Block :=
  if b.portEnabled (2 * k) || b.portEnabled (2 * k + 1) then
    ((b.domUp (elLcPll k)).calibrate (elLcPll k)).setLocked k true
  else b

/-- An enabled port is powered and clocked (R455 steps 12 and 13). -/
def Block.bringPort (b : Block) (p : Nat) : Block :=
  if b.portEnabled p then ((b.domUp (elSerdes p)).domUp (elLinkEngine p)).clkRun p
  else b.modClk p fun c => { c with gated := true }

/-- Steps 9 to 13 of R455. A fault of the self-checks that calls for quench stops it there; one that calls for
a chip reset does so before step 13 (R456). -/
def Block.fullSequence (b : Block) : Block :=
  let b := b.selfChecks
  match b.reacts.find? Reaction.quenches with
  | some r => b.enterQuench r.code
  | none =>
    if b.quench then b
    else if b.reacts.any Reaction.resets then { b with phase := .starting }
    else
      let b := (({ b with earlyResets := 0 } : Block).fitQuotas.fitUses).burnSvn
      let b := if b.isRoot then b.takeRoot else b
      let b := (List.range 4).foldl (fun b n => b.bringLink n) b
      let b := ((List.range 8).foldl (fun b k => b.bringPll k) b).turnBoard
      let b := (List.range 16).foldl (fun b p => b.bringPort p) b
      (b.startLinks).startPorts

/-- Steps 1 to 6 of R455: always-on service domains, the 56 domains of step 3, the wipe, SYSPLL and
TIMEPLL, and the service clock domains. -/
def Block.earlySteps (b : Block) : Block :=
  let els := [137, 138, elMnet, 140, 141, elDebug] ++ (List.range 6).map elBridge ++
    (List.range 48).map elSram
  let b := els.foldl (fun b e => b.domUp e) b
  let b := (b.setLocked 12 true).setLocked 13 true
  let b := [20, 21, 22, 23, 24].foldl (fun b d => b.clkRun d) b
  let b := if b.trstHigh then b else b.modClk 23 fun c => { c with gated := true }
  { (b.restartSeqs).makeIdentity with
    flash := { b.flash with bootCount := b.flash.bootCount + 1 } }

/-- The boot ROM loads firmware from flash (R454, R465): one that does not answer leaves the device in recovery
mode. -/
def Block.bootFlash (b : Block) : Block :=
  let silent := b.luck.flashSilent
  let b := b.turnLuck fun l k => { l with flashSilent := bit k 0 }
  if silent then { b with phase := .recovery }
  else
    match b.bootSlot with
    | (none, b) => { b with phase := .recovery }
    | (some k, b) => { b with flash := { b.flash with running := k } }.fullSequence

/-- The boot ROM acts on `BOOT_MODE` (R454, R456, R481, R482, R493). -/
def Block.bootRom (b : Block) : Block :=
  let open_ := decide (b.lifeCycle < 2)
  let mode := if b.lifeCycle = 3 then 0 else b.bootMode
  if b.testMode && open_ then { b with phase := .testProgram }
  else if 4 ≤ b.earlyResets then { b with phase := .recovery }
  else
    match mode with
    | 1 => { b with phase := .recovery }
    | 2 => if open_ then { b with phase := .debugHold } else b.bootFlash
    | 3 => (b.raise blkSvc 9 noUnit 0xFFFFFFFF).bootFlash
    | _ => b.bootFlash

/-- The fuses are loaded and checked (R455 step 6): a fault puts the device in quench (R456). -/
def Block.checkFuses (b : Block) : Block :=
  let bad := b.luck.fuseCheck
  let b := b.turnLuck fun l k => { l with fuseCheck := bit k 0 }
  if bad then
    { (b.raise blkCrypto 8 noUnit 0).enterQuench (srcCode blkCrypto 8 noUnit) with phase := .running }
  else b

/-- Start-up from its first step (R455). -/
def Block.startUp (b : Block) : Block :=
  let b := { (b.wiped).earlySteps with phase := .starting }.checkFuses
  if b.quench then b else b.bootRom

/-- A chip reset with its `RESET_CAUSE` (R450, R451, R456). -/
def Block.chipReset (b : Block) (cause : Nat) : Block :=
  if b.phase = .held ∨ b.phase = .dead then b
  else
    let early := if b.phase ≠ .running ∧ (cause = 3 ∨ cause = 5) then b.earlyResets + 1
      else b.earlyResets
    ({ b with resetCause := cause, earlyResets := early } : Block).startUp

/-- The device is held by a package reset (R443, R445). -/
def Block.hold (b : Block) : Block := { b.wiped with phase := .held }

/-- The device is held by a cause of its own; a cause that is recorded while another holds the device
is absorbed by it (R451). -/
def Block.holdFor (b : Block) (cause : Nat) : Block :=
  ({ b with resetCause := if b.porstLow || b.railHold then b.resetCause else cause } : Block).hold

/-- POWER_ON_RESET (R445): VDD_AON clears the power-on latch, and what the AON island counts. -/
def Block.railTrip (b : Block) (rail : Rail) : Block :=
  let b := { b.holdFor 0 with railHold := true }
  if rail = .vddAon then { b with fromPowerOn := true, earlyResets := 0 } else b

/-- The power fails, VDD_AON with it, where it does so in the middle of a write to flash or of a burning (R465,
R479); when that happens next is open (log 166). -/
def Block.powerCut (b : Block) : Bool × Block :=
  let cut := b.luck.powerCut
  (cut, b.turnLuck fun l k => { l with powerCut := bit k 0 })

/-- A chip reset for a fault or for the watchdog cuts into a write to flash (R465): its `RESET_CAUSE`, 0 for none;
when that happens next is open (log 166). In quench none starts (R451). -/
def Block.resetCut (b : Block) : Nat × Block :=
  if b.quench then (0, b)
  else (b.luck.resetCut, b.turnLuck fun l k => { l with resetCut := nth 0 [0, 3, 5] (k % 3) })

end Sys2Proof.Machine
end

