-- ==== Sys2Proof/Machine/ClockOps.lean ====
section
/-! DEFINITION. The registers of CLKGEN and their strobe (R425, R426, R431, R433, R439), and the block reset
of CLKGEN (R396). -/

namespace Sys2Proof.Machine

/-! ## Registers of CLKGEN -/

/-- Base of the CLKGEN block in the service processor's space. -/
def clkgenBase : Nat := 0x31800000
/-- Addresses of `CLK_SEL_d`, `CLK_FORCE_d`, `CLK_MON_d`, `GOV_CTRL`, `GATE_TIMEOUT`, `CLKOUT_CTRL`. -/
def clkSelAt (d : Nat) : Nat := clkgenBase + 4 * d
def clkForceAt (d : Nat) : Nat := clkgenBase + 0xA0 + 4 * d
def govCtrlAt : Nat := clkgenBase + 0x410
def gateTimeoutAt : Nat := clkgenBase + 0x420
def clkoutAt : Nat := clkgenBase + 0x430

/-- A refused write of CLKGEN (R393, R429, R439). -/
def Block.clkgenBad (b : Block) (addr : Nat) : Block := b.raise blkClkgen 1 noUnit addr

/-- `GOV_EN` in force. -/
def Block.govEn (b : Block) : Bool := Tbl.get 1 b.spAct govCtrlAt == 1
/-- `GATE_TIMEOUT` in force, in µs. -/
def Block.gateTimeout (b : Block) : Nat := Tbl.get 100 b.spAct gateTimeoutAt
/-- The active copy of `GOV_CTRL`: its fields are objects 0x7000 and 0x7001, and `GOV_EN`. -/
def Block.govCtrl (b : Block) : Nat :=
  b.obj 0x7000 0 + b.obj 0x7001 0 * 2 ^ 16 + b2n b.govEn * 2 ^ 31

/-- The active value of a register with a shadow of its own. -/
def Block.spActive (b : Block) (addr : Nat) : Nat :=
  if addr = govCtrlAt then b.govCtrl
  else if addr = gateTimeoutAt then b.gateTimeout
  else b.obj 0x7020 0

/-- Its shadow: what was last written, or the active value. -/
def Block.spShadow (b : Block) (addr : Nat) : Nat :=
  match lookup addr b.spSh with
  | some v => v
  | none => b.spActive addr

/-- Write a shadow (R226). -/
def Block.setSpShadow (b : Block) (addr v : Nat) : Block :=
  { b with spSh := Tbl.set (b.spActive addr) b.spSh addr v }

/-! ## Switching sources (R425 to R427) -/

/-- The device's own consequences of a source code: time on FOSC is not synchronised until it runs on TIMEPLL
again, where the root is the one that sets it (R92, R425). -/
def Block.sourceNow (b : Block) (d : Nat) : Block :=
  if d ≠ clkTime then b
  else if (b.clk d).cur = 0 then b.modTime fun t => { t with synced := false }
  else if b.isRoot && b.domainRuns d then b.modTime fun t => { t with synced := true }
  else b

/-- A strobe of `SRC` of domain `d` (R426); reserved codes are refused (log 37). -/
def Block.strobeSrc (b : Block) (d : Nat) : Block :=
  let c := b.clk d
  if 2 ≤ c.srcSh then b.clkgenBad (clkSelAt d)
  else if c.switching then b.setClk d { c with queued := some c.srcSh }
  else if c.srcSh = c.cur then b.setClk d { c with src := c.srcSh }
  else b.setClk d { c with src := c.srcSh, switching := true }

/-- The device keeps domain `d` gated by itself: the clock of a DISABLED port, of an absent host link, or of
DBG with TRST_N low (R432). -/
def Block.selfGated (b : Block) (d : Nat) : Bool :=
  if d < 16 then (b.port d).st == .disabled
  else if d < 20 then !b.present (d - 16)
  else d == 23 && !b.trstHigh

/-- A strobe of `GATE` of domain `d` (R431). -/
def Block.strobeGate (b : Block) (d : Nat) : Block :=
  let c := b.clk d
  if c.gateSh then
    if d = 20 ∨ d = 22 ∨ d = 24 then b.clkgenBad (clkSelAt d)
    else
      b.setClk d { c with gate := true,
                          gateAsked := if c.gated || c.gateAsked.isSome then c.gateAsked
                            else some b.now }
  else if c.gate then
    b.setClk d (if b.selfGated d then { c with gate := false }
      else { c with gate := false, gated := false, gateAsked := none })
  else b

/-- Nominal output in kHz of a `CLKOUT` source (R422, R425, R433); none for a reserved code. -/
def clkoutKhz (code : Nat) : Option Nat :=
  if code < 16 then some 1660160
  else if code < 20 then some 1000000
  else if code = 20 then some 800000
  else if code = 21 ∨ code = 23 then some 100000
  else if code = 22 then some 1000000
  else if code = 24 then some 25000
  else if code = 0x20 then some 400000
  else if code = 0x21 then some 50
  else if code = 0x22 then some 156250
  else if code = 0x23 then some 25000
  else if 0x24 ≤ code ∧ code ≤ 0x27 then some 100000
  else if 0x30 ≤ code ∧ code ≤ 0x37 then some 1660160
  else if code = 0x3C then some 800000
  else if 0x38 ≤ code ∧ code ≤ 0x3D then some 1000000
  else if 0x40 ≤ code ∧ code ≤ 0x43 then some 2600000
  else none

/-- R433 takes this `CLKOUT_CTRL`. -/
def clkoutOk (v : Nat) : Bool :=
  let div := bits v 18 8
  decide (1 ≤ div) && decide (div ≤ 1024) && bits v 30 19 == 0 &&
  (match clkoutKhz (bits v 7 0) with
    | some f => decide (f ≤ 800000 * div)
    | none => false)

/-- The source of this code has edges, and its domain is not gated (R433). -/
def Block.clkoutRuns (b : Block) (code : Nat) : Bool :=
  if code < 25 then b.clockOn code
  else if 0x30 ≤ code ∧ code ≤ 0x3D then Tbl.get false b.plls (code - 0x30)
  else if 0x40 ≤ code ∧ code ≤ 0x43 then bit b.regions (code - 0x40)
  else if code = 0x21 then !b.sosStopped
  else (clkoutKhz code).isSome

/-- A switch of CLKOUT gets past the source of this code: it has edges, or belongs to a gated domain, which
gives a low output and no hang. -/
def Block.clkoutPasses (b : Block) (code : Nat) : Bool :=
  (decide (code < 25) && (b.clk code).gated) || b.clkoutRuns code

/-- A new selection of CLKOUT is strobed where `old` stood (R433): its switch hangs on a stopped source. One
that hangs already is left by a new selection (log 167). -/
def Block.clkoutSwitch (b : Block) (old : Nat) : Block :=
  let new := b.obj 0x7020 0
  if new = old then b
  else
    let code (v : Nat) : Nat := bits v 7 0
    let away := !bit old 31 || b.clkoutHung || b.clkoutPasses (code old)
    { b with clkoutHung := bit new 31 && !(away && b.clkoutPasses (code new)) }

/-- What CLKOUT_P/N carries (R433): the source code and the divisor; none where the output is low. -/
def Block.clkout (b : Block) : Option (Nat × Nat) :=
  let v := b.obj 0x7020 0
  if bit v 31 && !b.clkoutHung && b.clkoutRuns (bits v 7 0) then some (bits v 7 0, bits v 18 8) else none

/-- The value of a shadowed register is one its strobe applies (R439). -/
def spValueOk (addr v : Nat) : Bool :=
  if addr = govCtrlAt then
    decide (1000 ≤ bits v 11 0) && decide (bits v 11 0 ≤ 2600) &&
      decide (600 ≤ bits v 25 16) && decide (bits v 25 16 ≤ 850)
  else if addr = gateTimeoutAt then decide (1 ≤ v) && decide (v ≤ 10000)
  else clkoutOk v

/-- The shadow of a register becomes its active copy, or is refused (R439). -/
def Block.strobeSp (b : Block) (addr : Nat) : Block :=
  match lookup addr b.spSh with
  | none => b
  | some v =>
    if !spValueOk addr v then b.clkgenBad addr
    else
      let b := { b with spSh := erase1 addr b.spSh }
      if addr = govCtrlAt then
        let b := (b.setObj 0x7000 0 (bits v 11 0)).setObj 0x7001 0 (bits v 25 16)
        { b with spAct := Tbl.set 1 b.spAct govCtrlAt (bits v 31 31) }
      else if addr = gateTimeoutAt then
        { b with spAct := Tbl.set 100 b.spAct gateTimeoutAt v }
      else (b.setObj 0x7020 0 v).clkoutSwitch (b.obj 0x7020 0)

/-- Update group 24 (R227, R426, R431, R439). A port that was enabled while its domain was gated leaves DISABLED
once it no longer is, and its domain with it (R425, R432). -/
def Block.strobeClocks (b : Block) : Block :=
  let b := (List.range 25).foldl (fun b d => (b.strobeSrc d).strobeGate d) b
  let b := if b.live then (b.startPorts).startLinks else b
  ((b.strobeSp govCtrlAt).strobeSp gateTimeoutAt).strobeSp clkoutAt

/-! ## Block reset (R396) -/

/-- The registers of CLKGEN return to their reset values, both copies of those with a shadow (R228, R396):
every domain asks for source 0, and no gate or hold stands. -/
def Block.clkgenReset (b : Block) : Block :=
  let mine (a : Nat) : Bool := a == govCtrlAt || a == gateTimeoutAt || a == clkoutAt
  let b := { b with spSh := Tbl.drop mine b.spSh, spAct := Tbl.drop mine b.spAct,
                    gov := { episodes := b.gov.episodes } }
  let b := [0x7000, 0x7001, 0x7020].foldl (fun b i => b.setObj i 0 (objDefault i 0)) { b with clkoutHung := false }
  (List.range 25).foldl (fun b d =>
    let b := b.modClk d fun c =>
      { c with srcSh := 0, gateSh := false, gateBusy := false, held := false, queued := none }
    (b.strobeSrc d).strobeGate d) b

end Sys2Proof.Machine
end

