-- ==== Sys2Proof/Machine/Replies.lean ====
section
/-! DEFINITION. What a request of the Ilteore Dictionary Protocol is made of, and its reply on the way out
(R349, R351 to R353, R355, R358), which the management network carries (R23). -/

namespace Sys2Proof.Machine

/-! ## Status codes of the dictionary (R364) -/

def dsNoObject : Nat := 0x80
def dsNoSubindex : Nat := 0x81
def dsLength : Nat := 0x82
def dsNotWritable : Nat := 0x83
def dsNotReadable : Nat := 0x84
def dsNoRight : Nat := 0x85
def dsAuth : Nat := 0x86
def dsReplay : Nat := 0x87
def dsRange : Nat := 0x88
def dsBusy : Nat := 0x89
def dsSegment : Nat := 0x8A
def dsNoXfer : Nat := 0x8B
def dsState : Nat := 0x8C
def dsFlash : Nat := 0x8D
def dsTooMany : Nat := 0x8E
def dsVersion : Nat := 0x8F
def dsMtype : Nat := 0x90

/-! ## The message (R349, R350) -/

def mtRead : Nat := 0x01
def mtWrite : Nat := 0x02
def mtInfo : Nat := 0x03
def mtSegOpen : Nat := 0x10
def mtSegData : Nat := 0x11
def mtSegCommit : Nat := 0x12
def mtSegAbort : Nat := 0x13

def IdpReq.mtype (r : IdpReq) : Nat := fld r.msg 1 1
def IdpReq.auth (r : IdpReq) : Bool := bit (fld r.msg 2 1) 1
def IdpReq.principal (r : IdpReq) : Nat := fld r.msg 3 1
def IdpReq.seq (r : IdpReq) : Nat := fld r.msg 8 8
def IdpReq.index (r : IdpReq) : Nat := fld r.msg 16 2
def IdpReq.sub (r : IdpReq) : Nat := fld r.msg 18 1
def IdpReq.offset (r : IdpReq) : Nat := fld r.msg 20 4
def IdpReq.length (r : IdpReq) : Nat := fld r.msg 24 2
def IdpReq.xfer (r : IdpReq) : Nat := fld r.msg 26 2
def IdpReq.count (r : IdpReq) : Nat := fld r.msg 28 4
/-- The data bytes. -/
def IdpReq.data (r : IdpReq) : Bytes := slice r.msg 32 r.length
/-- The `MAC` of an authenticated request. -/
def IdpReq.mac (r : IdpReq) : Bytes := slice r.msg (32 + r.length) 16

/-- The key of a principal, where it has one: a PF has none (R355, R475). -/
def Block.keyOf (b : Block) (p : Nat) : Option Bytes := if p < 3 then b.fuses.idpKey p else none

/-- `MAC` of a message under a key (R355). -/
def idpMac (key msg : Bytes) : Bytes := (hmac key msg).take 16

/-- The sequence state of a principal. -/
def Block.seqOf (b : Block) (p : Nat) : SeqState := Tbl.get {} b.seqs p

/-! ## The management network -/

/-- The clock domain of the management network (R425). -/
def clkMnet : Nat := 21

/-- The management network is powered, and its clock domain carries traffic (R23, R425, R446). -/
def Block.mnetUp (b : Block) : Bool := b.domOn elMnet && b.domainRuns clkMnet

/-- What waits for the management network leaves, once its clock domain runs (R23). -/
def Block.flushMnet (b : Block) : Block :=
  if b.mnetUp then { b with out := b.out ++ b.mnetWait, mnetWait := [] } else b

/-- Drive `l` out over the management network: nothing while it has no power, later while its clock domain
does not run (R23). -/
def Block.sendMnet (b : Block) (l : List Out) : Block :=
  if b.domOn elMnet then ({ b with mnetWait := b.mnetWait ++ l } : Block).flushMnet else b

/-- The reply of a mailbox exchange stands in the reply buffer (R353). -/
def Block.mbxAnswer (b : Block) (hl : Nat) (msg : Bytes) : Block :=
  let c := (b.link hl).mbxCtrl.toNat
  let b := b.modLink hl fun l =>
    { l with mbxBusy := false, mbxDone := true, mbxReply := msg, mbxReplyLen := msg.length }
  if bit c 1 then b.msix (fidOf hl 0) (bits c 15 8) else b

/-- The role that the PLCA settings in force give. -/
def Block.plcaRole (b : Block) : PlcaRole :=
  if b.plcaId = 0 then .coordinator b.plcaCount else if b.plcaId = 255 then .csmaCd
  else .node b.plcaId

/-- PLCA settings that waited for their reply to be sent come into force (R372). -/
def Block.takePlca (b : Block) : Block :=
  { b with plcaId := b.obj 0x1020 1, plcaCount := b.obj 0x1020 2, plcaDue := false }

/-! ## Replies -/

/-- The frame that carries a reply to `mac`, padded to the Ethernet minimum (R351). -/
def Block.t1sReply (b : Block) (mac : Nat) (msg : Bytes) : T1sFrame :=
  let body := [0x49, 0x44] ++ msg
  { dst := mac, src := b.fuses.macAddr, vlan := false, etherType := 0x88B5,
    payload := body ++ zeros (46 - body.length) }

/-- An MCTP message, type byte first, in transmission units of 64 bytes (R352). -/
def mctpUnitsOf (body : Bytes) : List Bytes :=
  (List.range ((body.length + 63) / 64)).map fun i => (body.drop (64 * i)).take 64

/-- The MCTP message that carries an IDP message: type 0x7F without integrity check, and the enterprise
number, least byte first (log 91). -/
def Block.mctpIdp (b : Block) (msg : Bytes) : Bytes := [0x7F] ++ toLe 4 b.fuses.enterpriseNo ++ msg

/-- What a reply is on the bus that its request came by (R351, R352): on I3C an in-band interrupt announces
it, which a target without a dynamic address cannot raise. -/
def Block.onWire (b : Block) (src : IdpSource) (msg : Bytes) : List Out :=
  match src with
  | .t1s mac => [.t1sFrame b.plcaRole (b.t1sReply mac msg)]
  | .i3c eid =>
    if b.i3cAddr.isSome then [.i3cInterrupt, .mctpUnits eid (mctpUnitsOf (b.mctpIdp msg))] else []
  | .mailbox _ => []

/-- Send bytes to a requester. -/
def Block.sendReply (b : Block) (src : IdpSource) (msg : Bytes) : Block :=
  match src with
  | .mailbox hl => b.mbxAnswer hl msg
  | _ => b.sendMnet (b.onWire src msg)

/-- A reply without `MAC` (R349). -/
def IdpReq.reply (r : IdpReq) (auth : Bool) (st : Nat) (data : Bytes) (count : Nat)
    (xfer : Option Nat) : Bytes :=
  toLe 1 1 ++ slice r.msg 1 1 ++ toLe 1 (1 + b2n auth * 2) ++ slice r.msg 3 16 ++ toLe 1 st ++
    slice r.msg 20 4 ++ toLe 2 data.length ++ toLe 2 (xfer.getD r.xfer) ++ toLe 4 count ++ data

/-- Answer a request that passed orders 1 to 6: authenticated under `key` where the request was, and
then stored (R355, R358). -/
def Block.idpAnswer (b : Block) (key : Option Bytes) (r : IdpReq) (st : Nat) (data : Bytes) (count : Nat)
    (xfer : Option Nat) : Block :=
  let msg := r.reply r.auth st data count xfer
  if r.auth then
    let msg := msg ++ idpMac (key.getD []) msg
    let s := b.seqOf r.principal
    let s := { s with replies := ((r.seq, r.mac, msg) :: s.replies).take 8 }
    ({ b with seqs := Tbl.set {} b.seqs r.principal s } : Block).sendReply r.src msg
  else b.sendReply r.src msg

/-- Answer the requests that wait under a key of `loadWait`. -/
def Block.answerWaiting (b : Block) (k st count : Nat) : Block :=
  let mine := b.loadWait.filter fun w => w.1 == k
  let b := { b with loadWait := b.loadWait.filter fun w => !(w.1 == k) }
  mine.foldl (fun b w =>
    b.idpAnswer (b.keyOf w.2.principal) w.2 st [] (if w.2.mtype = mtSegCommit then count else 0) none) b

/-- The key of `loadWait` for a CHANGE_MODE of port 0; port `p` has `p` more. -/
def pauseKey : Nat := 2048

/-- The answers to CHANGE_MODE writes whose PAUSE REQ has been sent, or that end otherwise (R376). -/
def Block.answerPauses (b : Block) : Block :=
  (List.range 16).foldl (fun b p =>
    if (b.port p).pauseOwed.isNone then b.answerWaiting (pauseKey + p) stOk 0 else b) b

end Sys2Proof.Machine
end

