-- ==== Sys2Proof/Machine/Trees.lean ====
section
/-! DEFINITION. The gather of DELIVERY_REPORTs at each router (R116). -/

namespace Sys2Proof.Machine

/-- Children of a sprue entry: its output ports, and 16 for this node (R113). -/
def sprueKids (w : Nat) : List Nat := bitList 16 (sprueOut w) ++ (if sprueLocal w then [16] else [])

/-- A DELIVERY_REPORT (R43, R44). No rule states its `DST_FA`, so it is a free value (log 27). -/
def deliveryReport (node dst : Nat) (r : ReportRec) : Pkt :=
  (ctlPkt 5 1 false 0 r.part dst (mkFa node 0x3FFF) r.key.toNat
    (toLe 4 r.delivered ++ toLe 4 r.fenced ++ toLe 2 r.tree)).onTree 2 r.tree

/-- Send a report up its tree (R114, R116), from the injection point in its turn (R105). -/
def Block.sendUp (b : Block) (w : Nat) (r : ReportRec) : Block :=
  let (dst, b) := b.choose (2 ^ 32)
  b.make (2 * sprueLayer w + 1) (deliveryReport b.nodeId dst r) [sprueParent w]

/-- A record closes: its sums go to the `PARENT` of the sprue entry `w`, or at the root to the transport
engine (R116). -/
def Block.closeReport (b : Block) (w : Nat) (r : ReportRec) : Block :=
  let b := { b with
    reports := b.reports.filter fun x => !(x.tree == r.tree && x.key == r.key),
    closedReports := ((r.tree, r.key) :: b.closedReports).take 16384 }
  if sprueRoot w then b.mcastReport r.tree r.key r.delivered r.fenced else b.sendUp w r

/-- The record has what closes it beside time (R116), by the sprue entry `w`. -/
def Block.reportWhole (b : Block) (w : Nat) (r : ReportRec) : Bool :=
  decide (sprueChildren w ≤ r.count) ||
    (sprueKids w).all fun k => r.from_.contains k || (k != 16 && !b.portUp k)

/-- Add a contribution to a gather record, opening it where it is the first (R116); `w` is the sprue entry
that was read for the packet that brings it (R26). One from a port that is no child of the entry is dropped and counted
as a tree fault: no rule speaks of it (log 177). -/
def Block.addReport (b : Block) (w tree : Nat) (key : BitVec 32)
    (from_ part delivered fenced : Nat) : Block :=
  if !sprueValid w || !(sprueKids w).contains from_ then b.count 513 1
  else if b.closedReports.contains (tree, key) then b.count 515 1
  else
    let old := b.reports.find? fun r => r.tree == tree && r.key == key
    let full := decide (4 ≤ (b.reports.filter fun r => r.tree == tree).length)
    match old with
    | none =>
      if full then b.count 515 1
      else
        let r : ReportRec :=
          { tree := tree, key := key, delivered := delivered, fenced := fenced, count := 1,
            from_ := [from_], openedAt := b.now, wait := b.obj 0x4010 6, part := part }
        let b := { b with reports := b.reports ++ [r] }
        if b.reportWhole w r then b.closeReport w r else b
    | some o =>
      let r : ReportRec :=
        { o with delivered := o.delivered + delivered, fenced := o.fenced + fenced,
                 count := o.count + 1, from_ := o.from_ ++ [from_] }
      let b := { b with reports := b.reports.map fun x => if x = o then r else x }
      if b.reportWhole w r then b.closeReport w r else b

/-- Close the records whose missing children have all gone down (R116). -/
def Block.sweepReports (b : Block) : Block :=
  b.reports.foldl (fun b r =>
    let w := Tbl.get 0 b.sprue r.tree
    if b.reportWhole w r then b.closeReport w r else b) b

end Sys2Proof.Machine
end

