-- ==== Sys2Proof/Machine/Reactions.lean ====
section
/-! DEFINITION. What follows from a command within its own step: the reactions of raised fault
sources (R395 to R397, R401), the breaks of pours whose packets were dropped (R117), and the
notification places that have come free (R193). `run` and `runR` make a step's outcome. -/

namespace Sys2Proof.Machine

/-- A block the host links share, whose INT or TRAP raises DEVICE_FAULT (R395). -/
def sharedBlk (blk : Nat) : Bool :=
  decide (blk < 40) || (decide (60 ≤ blk) && decide (blk < 108)) ||
    (decide (116 ≤ blk) && decide (blk < 129)) || blk == blkSvc || blk == blkCrypto || blk == blkClkgen

/-- The host link a controller or PHY block belongs to. -/
def blkLink (blk : Nat) : Option Nat :=
  if 108 ≤ blk ∧ blk < 116 then some ((blk - 108) % 4) else none

/-- An INT to a function: the PF through `TG_FAULT_VECTOR`, a VF through its `VF_FAULT_VECTOR`
(R207, R239, R395). -/
def Block.faultInt (b : Block) (fid : Nat) : Block :=
  let pf := fidFn fid == 0
  let w := if pf then (b.link (fidLink fid)).faultVec.toNat else (b.vfRec fid).get 0x34
  let v := if pf then bits w 7 0 else bits w 4 0
  if !b.fnLive fid then b
  else if bit w 15 then b.msix fid v else b.msixPend fid v

/-- The INT of a source (R395). -/
def Block.reactInt (b : Block) (r : Reaction) : Block :=
  match blkLink r.blk with
  | some hl => b.faultInt (r.fid.getD (fidOf hl 0))
  | none => b.emit (.spInt r.code)

/-- Packets that lie in a cluster of region `r` as it is reset are lost: which of those delivered and not
yet taken are there is open (R396, log 28). -/
def Block.loseSome (b : Block) (r : Nat) : Block :=
  let n := b.fresh
  let lost (i : Nat) : Bool := Config.freeNat (n + i) 2 % 2 == 1
  let kept := (b.delivery.mapIdx fun i a => (i, a)).filter fun e => !(b.homedIn r e.2 && lost e.1)
  { b with delivery := kept.map (·.2), fresh := n + b.delivery.length }

/-- The descriptors that the polling engines of region `r` hold are lost, and their entries are polled
again (R249, R396, log 28). -/
def Block.loseTaken (b : Block) (r : Nat) : Block :=
  let back (q : Queue) : Queue :=
    match q.taken with
    | t :: _ =>
      if q.home = r then { q with c := t.idx, phase := entPhase t.bytes, taken := [], pollAt := some b.now }
      else q
    | [] => q
  { b with queues := Tbl.map {} (fun _ q => back q) b.queues,
           placeWait := b.placeWait.filter fun w =>
             match w.2 with
             | .head q _ _ => (b.queue q).home != r
             | _ => true }

/-- What a reset of a region cluster discards (R396): packets of the sieve, transport and crossbar
clusters, the pours of the mould cluster, and the descriptors of the service cluster. -/
def Block.clusterLoses (b : Block) (blk : Nat) : Block :=
  let r := blk / 10
  match blk % 10 with
  | 6 =>
    let mine := b.moulds.flatMap fun e =>
      (e.2.pours.filter fun p => p.armed && p.home == r).map fun p => (e.1, p)
    mine.foldl (fun b x => b.breakHere x.1 x.2 10 0) b
  | 7 => b
  | 8 => b
  | 9 => b.loseTaken r
  | 2 => b.loseInjected.loseSome r
  | 3 => b.loseInjected.loseSome r
  | 4 => b.loseQueued.loseSome r
  | 5 => b.loseQueued.loseSome r
  | _ => b.loseSome r

/-- A region cluster is block-reset (R396), with what any reset of it loses; the fourth time within 1 s it loses
every unit, and its region retires, where it is not the last live one. -/
def Block.resetCluster (b : Block) (blk : Nat) (times : List Nat) : Block :=
  if 4 ≤ times.length then
    let f := b.fltOf blk
    let left := b.liveUnits blk
    let b := (b.setFlt blk { f with retiredUnits := f.retiredUnits ++ left }).count 1408 left.length
    (b.clusterLoses blk).retireRegion (blk / 10)
  else b.clusterLoses blk

/-- The settings that the registers of a port or of a host-link controller hold return to their reset values, both
copies (R228, R396): what R94 marks "next training" is held in the dictionary, and so is `ENABLE` (R367, log 186). -/
def Block.resetSettings (b : Block) (blk : Nat) : Block :=
  let back (b : Block) (idx : Nat) (subs : List Nat) : Block :=
    subs.foldl (fun b k => b.setObj idx k (objDefault idx k)) b
  if 40 ≤ blk ∧ blk < 56 then
    (back b (0x3100 + (blk - 40)) [6, 7, 8, 9, 11]).modPort (blk - 40) fun x => { x with loaded := {} }
  else if 108 ≤ blk ∧ blk < 112 then
    back (back b (0x2020 + (blk - 108)) [1, 2]) (0x2030 + (blk - 108)) [1, 2, 3, 4, 5, 6, 7, 8]
  else b

/-- A block reset (R396). The registers of the block return to their reset values, RS fields apart. While
one is in progress, which is for the rest of its instant (log 28), no further one starts. -/
def Block.blockReset (b : Block) (blk : Nat) : Block :=
  let f := b.fltOf blk
  if (60 ≤ blk ∧ blk < 108) ∨ blk = blkSvc ∨ blk = blkAon ∨ blk = blkCrypto ∨ blk = 135 ∨
      f.resets.head? = some b.now then b
  else
    let b := (b.resetMasks blk).resetSettings blk
    let times := b.now :: f.resets.filter fun t => decide (b.now < t + 10 ^ 9)
    let b := (b.setFlt blk { f with resets := times }).count 1411 1
    if blk < 40 then b.resetCluster blk times
    else if blk < 56 then b.resetPort (blk - 40)
    else if blk = blkClkgen then b.clkgenReset
    else if blk = blkMnet then { b with i3cAddr := none, mctpEid := 0 }
    else
      match blkLink blk with
      | some hl => b.hotReset hl
      | none => b

/-- What a raised source tells (R395): an interrupt or a trap, and DEVICE_FAULT for a shared block. In quench the
service processor goes on taking them, unless its own block has caused it, and no event is written (R172, R404). -/
def Block.reactTell (b : Block) (r : Reaction) : Block :=
  if b.spStopped then b
  else
    let b := if bit r.mask 0 then b.reactInt r else b
    let b := if bit r.mask 1 then b.emit (.spTrap r.code) else b
    if (bit r.mask 0 || bit r.mask 1) && sharedBlk r.blk then b.deviceFault r.code else b

/-- A raised source acts on its mask (R395): quench stands in place of the chip reset, and wins over one that
another source of the same instant calls for (R403). TEMP_CRIT brings quench whatever the mask holds (R393). In
quench no block and no chip is reset, because state is kept (R404, R451, log 172). -/
def Block.react1 (b : Block) (r : Reaction) : Block :=
  if b.phase = .held ∨ b.phase = .dead then b
  else
    let m := r.mask
    let b := b.reactTell r
    if b.quench then b
    else
    let b := if bit m 2 then b.blockReset r.blk else b
    if r.quenches then b.enterQuench r.code
    else if r.resets && !b.reacts.any Reaction.quenches then
      b.chipReset (if r.blk = blkSvc ∧ r.src = 8 then 5 else 3)
    else b

/-- The pour of a dropped privileged packet breaks with cause LINK (R117). -/
def Block.losePriv (b : Block) (p : Pkt) : Block := if p.isMould then b.breakFor p 2 else b

/-- Act on reactions and lost packets until none is left; `fuel` bounds how many there are. -/
def Block.drain (fuel : Nat) (b : Block) : Block :=
  match fuel with
  | 0 => b
  | n + 1 =>
    match b.reacts with
    | r :: t => Block.drain n (({ b with reacts := t }).react1 r)
    | [] =>
      match b.lostPriv with
      | p :: t => Block.drain n (({ b with lostPriv := t }).losePriv p)
      | [] => b

/-- Fuel for `drain`. -/
def drainFuel : Nat := 4096

/-- The masks of a block become what its shadows hold (R226). -/
def Block.applyReact (b : Block) (blk : Nat) : Block :=
  let mine (k : Nat) : Bool := k / 64 == blk
  { b with react := (Tbl.drop (fun k => !mine k) b.reactSh).foldr (fun e t => Tbl.put t e.1 e.2)
             (Tbl.drop mine b.react) }

/-- Blocks that have been woken apply their shadows (R228). -/
def Block.wakeReact (b : Block) : Block :=
  let woken := b.reactDue.filter fun k => !b.blkGated k
  woken.foldl (fun b k => b.applyReact k) { b with reactDue := b.reactDue.filter b.blkGated }

/-- Update group 23 of every block (R227): a gated one applies it when it is woken (R228). -/
def Block.strobeReact (b : Block) : Block := ({ b with reactDue := List.range 136 } : Block).wakeReact

/-- What follows from a command within its step. -/
def Block.settle (b : Block) : Block :=
  let b := if b.reactDue.isEmpty then b else b.wakeReact
  let b := b.drain drainFuel
  let b := if b.loadWait.all (fun w => decide (w.1 < pauseKey)) then b else b.answerPauses
  let b := if b.mnetWait.isEmpty then b else b.flushMnet
  let b := if b.plcaDue && b.mnetWait.isEmpty then b.takePlca else b
  let b := if b.reports.isEmpty then b else b.sweepReports
  let b := if b.readWait.isEmpty then b else b.serveReads
  if b.placeWait.isEmpty then b else (b.servePlaces).drain drainFuel

/-- The outcome of a command that changes the block by `f` and raises nothing. -/
def run (f : Block → Block) (s : State) : Host.Outcome State Fault Refusal :=
  .next { s with toBlock := f s.toBlock }

/-- The outcome of a command that changes the block by `f`, with what follows within the step. -/
def runR (f : Block → Block) (s : State) : Host.Outcome State Fault Refusal :=
  .next { s with toBlock := (f s.toBlock).settle }

end Sys2Proof.Machine
end

