-- ==== Sys2Proof/Machine/Clocks.lean ====
section
/-! DEFINITION. Clock domains: their switches, monitors and gates (R424 to R432), the tempo meters and the
governor (R434 to R438), and the commands that drive them. -/

namespace Sys2Proof.Machine

/-- CLOCK_SWITCH_DONE (R426): both sources have edges. A strobe held meanwhile is then applied. -/
def Block.switchDone (b : Block) (d : Nat) : Block :=
  let c := b.clk d
  if c.switching && !c.hung && b.sourceRuns d c.cur && b.sourceRuns d c.src then
    let c := { c with cur := c.src, switching := false }
    let c := match c.queued with
      | some q => { c with queued := none, src := q, switching := q != c.cur }
      | none => c
    (b.setClk d c).sourceNow d
  else b

/-! ## Forced switches (R429, R430) -/

/-- The forced switch itself. -/
def Block.forceSource (b : Block) (d src : Nat) : Block :=
  (b.modClk d fun c =>
    { c with cur := src, src := src, srcSh := src, switching := false, hung := false,
             queued := none }).sourceNow d

/-- HOLD_SET (R429): frames in progress of the management network are lost, and the TAP of a held DBG takes
no instruction. SVC and AON are never recovered this way (log 38). -/
def Block.holdSet (b : Block) (d : Nat) : Block :=
  if d = 20 ∨ d = 24 ∨ (b.clk d).held then b
  else
    let b := b.modClk d fun c => { c with held := true }
    if d < 16 then b.resetPort d
    else if d < 20 then b.hotReset (d - 16)
    else if d = clkMnet then { b with mnetWait := [] }
    else b

/-- HOLD_CLR (R429): time then runs unsynchronised. -/
def Block.holdClr (b : Block) (d : Nat) : Block :=
  if !(b.clk d).held then b
  else
    let b := b.modClk d fun c => { c with held := false }
    let b := if d = clkTime then b.modTime fun t => { t with synced := false, goodOffsets := 0 }
      else b
    (b.startPorts).startLinks

/-- GO (R429). A reserved source is refused (log 37). -/
def Block.clkGo (b : Block) (d src : Nat) : Block :=
  if !(b.clk d).held || decide (2 ≤ src) then b.clkgenBad (clkForceAt d) else b.forceSource d src

/-- The service processor writes a register (R224): not while the device is held, not in quench, and not
while its clock has stopped (R424). -/
def Block.spWrites (b : Block) : Bool := b.phase == .running && !b.quench && b.clockOn clkSvc

/-! ## Monitors (R428) -/

/-- The monitor of domain `d` watches it. -/
def Block.monitored (b : Block) (d : Nat) : Bool :=
  let c := b.clk d
  !b.sosStopped && !c.gated && !(d == 23 && c.cur == 0 && !c.switching)

/-- SVC or AON has stopped (R430): hardware forces its source, also out of a switch from FOSC to a stopped
source, which holds the clock low; with FOSC itself stopped the device is held. -/
def Block.svcStopped (b : Block) (d : Nat) : Block :=
  let c := b.clk d
  if c.cur = 0 ∧ !(c.switching && !b.sourceRuns d c.src) then { b with phase := .dead, fatalLow := true }
  else { b.forceSource d 0 with resetCause := 5 }

/-- A monitor window of domain `d` closes (R428). -/
def Block.monitorWindow (b : Block) (d edges : Nat) : Block :=
  if d = 25 then
    if edges = 0 then ({ b with sosStopped := true } : Block).raise blkClkgen 9 noUnit 0xFF
    else { b with sosStopped := false }
  else if !b.monitored d then b
  else
    let slow := decide (edges < 16)
    let b := b.modClk d fun c =>
      { c with edges := min edges (2 ^ 24 - 1), stopped := slow, hung := c.hung || (slow && c.switching) }
    if !slow then b
    else
      let b := b.raise blkClkgen 9 noUnit d
      if d = 20 ∨ d = 24 then b.svcStopped d else b

/-! ## Tempo (R434 to R438) -/

/-- The readings of the live regions whose meters have counted. -/
def Block.tempos (b : Block) : List Nat :=
  (b.liveRegions.filter fun r => nth [] b.gov.counts r != []).map fun r => nth 0 b.gov.tempo r

/-- Start or end a low-tempo episode (R435). -/
def Block.lowTempo (b : Block) : Block :=
  let g := b.gov
  if !g.lowTempo && b.tempos.any (fun t => decide (t < 1700)) then
    { b with gov := { g with lowTempo := true, episodes := g.episodes + 1 } }
  else if g.lowTempo && b.tempos.all (fun t => decide (1750 ≤ t)) then
    { b with gov := { g with lowTempo := false } }
  else b

/-- A meter's microsecond ends (R434): the mean of the last 16 counts, or of those there are. -/
def Block.meter (b : Block) (r count : Nat) : Block :=
  if !b.domainRuns clkTime then b
  else if !bit b.regions r then
    { b with gov := { b.gov with tempo := b.gov.tempo.set r 0, counts := b.gov.counts.set r [] } }
  else
    let l := (count :: nth [] b.gov.counts r).take 16
    let t := l.foldl (· + ·) 0 / l.length
    ({ b with gov := { b.gov with tempo := b.gov.tempo.set r (min t 0xFFFF),
                                  counts := b.gov.counts.set r l } } : Block).lowTempo

/-- VDD_CORE as the governor takes it: the voltage last reported good, at first the regulator's
start voltage (R436). -/
def Block.vddNow (b : Block) : Nat := if b.gov.vdd = 0 then 720 else b.gov.vdd

/-- The target in force: the floor of R382 holds while a region is retired. -/
def Block.tempoTarget (b : Block) : Nat :=
  if b.regions = 0xF then b.obj 0x7000 0 else max (b.obj 0x7000 0) 2300

/-- The step that R437 asks for (none before any meter has counted, log 39), and the voltage it gives with the limits of R437 and R438, and
whether a limit holds it. -/
def Block.govPlan (b : Block) : Nat × Bool :=
  let t := b.tempos.foldl min 0xFFFF
  let g := b.tempoTarget
  let v := b.vddNow
  let vmax := b.obj 0x7001 0
  if vmax < v then (max (v - 5) vmax, true)
  else
    let want := if b.tempos.isEmpty then v else if t + 200 < g then v + 20 else if t + 20 < g then v + 5
      else if g + 40 < t then v - 5 else v
    let new := max 600 (min want vmax)
    (new, want != v && new == v)

/-- The AON logic and the PLLs work: the device is neither held nor stopped (R424, R428). -/
def Block.awake (b : Block) : Bool := !(b.phase == .held || b.phase == .dead)

/-- The governor runs (R437, R438): start-up has switched SVC and TIME to their PLLs in its step 6, before the boot
ROM runs (R455). -/
def Block.govRuns (b : Block) : Bool := b.awake && b.govEn && !b.gov.avsFault

/-- How often a transaction with this outcome is sent: a failed attempt is retried twice (R438). -/
def avsAttempts : AvsResult → Nat
  | .good retries _ _ => retries.val + 1
  | .failed => 3

/-- One iteration of the governor (R437, R438). -/
def Block.govStep (b : Block) (avs : AvsResult) : Block :=
  if !b.govRuns then b
  else
    let (new, limit) := b.govPlan
    let write := new != b.vddNow
    let b := { b with gov := { b.gov with atLimit := limit } }
    let b := if write then Nat.repeat (fun b => b.emit (.avsWrite new)) (avsAttempts avs) b else b
    match avs with
    | .good _ mv ma =>
      { b with gov := { b.gov with vdd := if write || b.gov.vdd == 0 then mv else b.gov.vdd,
                                   ma := ma } }
    | .failed =>
      ({ b with gov := { b.gov with avsFault := true } } : Block).raise blkClkgen 4 noUnit 0x100

/-! ## PLLs (R424) -/

/-- PLL `k` has power (R448, R455). -/
def Block.pllPowered (b : Block) (k : Nat) : Bool :=
  if k < 8 then b.domOn (elLcPll k) else if k < 12 then b.domOn (elPhy (k - 8)) else b.domOn 140

/-- A PLL stops its output (R424): a host link loses its link. -/
def Block.pllLost (b : Block) (k : Nat) : Block :=
  if !b.locked k then b
  else
    let b := b.setLocked k false
    let b := b.raise (if k < 8 then 56 + k / 2 else blkClkgen) 8 noUnit k
    if 8 ≤ k ∧ k < 12 then b.hotReset (k - 8) else b

/-! ## Gates (R431, R432, R447) -/

/-- The island of domain `d` may answer a request for quiescence: a domain that must answer a host
is never gated (R432). -/
def Block.mayQuiet (b : Block) (d : Nat) : Bool :=
  !(decide (16 ≤ d) && decide (d < 20) && b.present (d - 16))

/-- The clock of a domain stops. -/
def Block.gateClock (b : Block) (d : Nat) : Block :=
  let c := b.clk d
  if c.gateAsked.isSome && b.mayQuiet d then b.setClk d { c with gated := true, gateAsked := none } else b

/-- No answer came in time (R431). -/
def Block.gateExpires (b : Block) (d : Nat) : Block :=
  let c := b.clk d
  match c.gateAsked with
  | some t =>
    if t + b.gateTimeout * 1000 ≤ b.now then
      b.setClk d { c with gateAsked := none, gateBusy := true }
    else b
  | none => b

/-! ## Meanings -/

/-- What a clock that runs again lets go on: ports leave DISABLED, and host links Detect (R425). -/
def Block.clocksBack (b : Block) : Block :=
  if b.quench || b.phase != .running then b else (b.startPorts).startLinks

/-- CLK_FORCE_GO (R429). -/
def execClkForceGo (d : DomainId) (src : Fin 4) (s : State) : Host.Outcome State Fault Refusal :=
  runR (fun b => if b.spWrites then b.clkGo d.val src.val else b) s

/-- HOLD_SET (R429). -/
def execHoldSet (d : DomainId) (s : State) : Host.Outcome State Fault Refusal :=
  runR (fun b => if b.spWrites then b.holdSet d.val else b) s

/-- HOLD_CLR (R429). -/
def execHoldClr (d : DomainId) (s : State) : Host.Outcome State Fault Refusal :=
  runR (fun b => if b.spWrites then b.holdClr d.val else b) s

/-- PLL_REFERENCE_LOSS (R424). -/
def execPllReferenceLoss (k : Fin 14) (s : State) : Host.Outcome State Fault Refusal :=
  runR (fun b => if b.awake then b.pllLost k.val else b) s

/-- PLL_LOCK (R424, R455): its output starts. -/
def execPllLock (k : Fin 14) (s : State) : Host.Outcome State Fault Refusal :=
  runR (fun b =>
    if b.awake && b.pllPowered k.val && !b.locked k.val then (b.setLocked k.val true).clocksBack
    else b) s

/-- CLOCK_SWITCH_DONE (R426). -/
def execClockSwitchDone (d : DomainId) (s : State) : Host.Outcome State Fault Refusal :=
  runR (fun b =>
    if b.awake then (b.switchDone d.val).clocksBack else b) s

/-- CLOCK_MONITOR_WINDOW (R428, R430). -/
def execClockMonitorWindow (d : Fin 26) (edges : Nat) (s : State) :
    Host.Outcome State Fault Refusal :=
  runR (fun b => if b.awake then b.monitorWindow d.val edges else b) s

/-- TEMPO_METER (R434, R435). -/
def execTempoMeter (r : Fin 4) (count : Nat) (s : State) : Host.Outcome State Fault Refusal :=
  run (fun b => if b.phase = .running then b.meter r.val count else b) s

/-- GOVERNOR_ITERATION (R437, R438). -/
def execGovernorIteration (avs : AvsResult) (s : State) : Host.Outcome State Fault Refusal :=
  runR (fun b => b.govStep avs) s

end Sys2Proof.Machine
end

