-- ==== Sys2Proof/Machine/Queues.lean ====
section
/-! DEFINITION. The queues: polls (R248 to R254), the checks and the issue of descriptors (R255 to
R261), and the return of event-queue entries (R264). -/

namespace Sys2Proof.Machine

/-! ## The poll budget (R253, R254) -/

/-- The queue has a read that has fallen due: a poll, or a free-entry read (R251, R252, R264). -/
def Queue.readDue (x : Queue) (now : Nat) : Bool :=
  x.live &&
  (if x.ty = 2 then decide (x.eqFree < 8) else decide (x.ty < 2) && decide (x.taken.length < 8)) &&
  (match x.pollAt with
    | some t => decide (t ≤ now)
    | none => false)

/-- The queues of host link `hl` with a read that has fallen due. -/
def Block.dueReads (b : Block) (hl : Nat) : List (Nat × Queue) :=
  b.queues.filter fun e => e.2.hl == hl && b.fnRuns e.2.fid && e.2.readDue b.now

/-- The smallest of a list by a rank. -/
def leastBy (rank : α → Nat) : List α → Option α
  | [] => none
  | x :: t =>
    match leastBy rank t with
    | none => some x
    | some y => if rank x ≤ rank y then some x else some y

/-- The queue among those that wait which is served next (R254): functions in turn, in the function the
highest `PRIO`, and equal priorities in turn; `last` is the function served last, and `lastQ` gives the
queue that a function's priority had served last. -/
def servedNext (last : Nat) (lastQ : Nat → Nat → Nat) (l : List (Nat × Queue)) : Option Nat :=
  match leastBy (fun e : Nat × Queue => (e.2.fid + 511 - last) % 512) l with
  | none => none
  | some f =>
    let mine := l.filter fun e => e.2.fid == f.2.fid
    let top := mine.foldl (fun n e => max n e.2.prio) 0
    (leastBy (fun e : Nat × Queue => (e.1 + 32767 - lastQ f.2.fid top) % 32768)
      (mine.filter fun e => e.2.prio == top)).map (·.1)

/-- Queue `q` is read next (R254). Only reads that wait on the budget have to wait for their turn. -/
def Block.readTurn (b : Block) (q : Nat) : Bool :=
  let hl := (b.queue q).hl
  let due := b.dueReads hl
  decide (due.length * 10 ^ 9 ≤ (b.link hl).bucket) ||
    servedNext (fidOf hl (b.link hl).lastFn) (fun fid p => Tbl.get 0 (b.fn fid).lastQ p) due == some q

/-- Take one read from the budget for queue `q` (R253, R254). -/
def Block.payRead (b : Block) (q : Nat) : Block :=
  let x := b.queue q
  let b := b.modLink x.hl fun l => { l with bucket := l.bucket - 10 ^ 9, lastFn := fidFn x.fid }
  ((b.modFn x.fid fun f => { f with lastQ := Tbl.set 0 f.lastQ x.prio q }).count 832 1).countEvent 14 x.fid (some q) 1

/-- The read of queue `q` may be made now. -/
def Block.mayRead (b : Block) (q : Nat) : Bool :=
  let x := b.queue q
  b.live && b.fnRuns x.fid && x.readDue b.now && b.hasBudget x.hl && b.readTurn q

/-- A read failed on the host link (R252): counted, raised, and made again after `POLL_CEIL`. -/
def Block.readFailed (b : Block) (q : Nat) : Block :=
  let x := b.queue q
  let b := (b.setQueue q { x with pollAt := some (b.now + x.pollCeil) }).count 835 1
  let (u, b) := b.someUnit [blkCluster x.home 9]
  b.raise u.1 8 u.2 q

/-- A read found nothing: the interval doubles up to the ceiling (R251). -/
def Block.readEmpty (b : Block) (q : Nat) : Block :=
  let x := b.queue q
  let i := min (2 * x.interval) x.pollCeil
  ((b.setQueue q { x with interval := i, pollAt := some (b.now + i) }).count 833 1
    ).countEvent 15 x.fid (some q) 1

/-! ## Polls of send and receive queues -/

/-- The entries that are new from the front on, `room` at most, with the consumer index and phase
after them (R248). -/
def takeNew (log room c : Nat) (phase : Bool) : List Bytes → List (Nat × Bytes) × Nat × Bool
  | [] => ([], c, phase)
  | e :: t =>
    if 0 < room ∧ entOwner e ∧ entPhase e = phase then
      let wrap := c + 1 == 2 ^ log
      let (l, c', ph) := takeNew log (room - 1) (if wrap then 0 else c + 1)
        (if wrap then !phase else phase) t
      ((c, e) :: l, c', ph)
    else ([], c, phase)

/-- Whether a taken descriptor is traced (R418): the function's count goes on for a queue it
watches. -/
def Block.traceTake (b : Block) (fid q : Nat) : Bool × Block :=
  let t := (b.fn fid).trace
  if t.on && (t.all || t.queue == q) then
    let n := t.count + 1
    let hit := n == t.period
    (hit, b.modFn fid fun f => { f with trace := { t with count := if hit then 0 else n } })
  else (false, b)

/-! ## Checks (R261) -/

/-- Every bit of a descriptor's field is zero. -/
def zeroAt (d : Bytes) (off len : Nat) : Bool := fld d off len == 0

/-- The opcode is allowed on the queue type (R257). -/
def opAllowed (ty op : Nat) : Bool :=
  if ty = 0 then [0, 1, 2, 3, 4, 7, 8].contains op else [0, 5, 6].contains op

/-- Reserved fields and bits are zero, and `CTX` where the opcode has none (R256, R258, R259). NOP and
LOCAL_FENCE have no operation fields, and none of theirs is called reserved (log 32). -/
def reservedOk (d : Bytes) : Bool :=
  let op := entOpcode d
  let ctx := fld d 4 4
  let mcast := entMcast d
  bits (fld d 0 4) 7 2 == 0 && fld d 3 1 == 0 && bits (entFlags d) 7 1 == 0 &&
  (if op = 1 ∨ op = 2 ∨ op = 3 ∨ op = 4 then bits ctx 31 26 == 0 else ctx == 0) &&
  (match op with
    | 1 => zeroAt d 26 2 && zeroAt d 36 4 && zeroAt d 48 16
    | 2 => (if mcast then bits (fld d 36 4) 31 12 == 0 && bits (fld d 48 8) 15 14 == 0 &&
              bits (fld d 48 8) 63 30 == 0
            else zeroAt d 36 4 && zeroAt d 48 8) && zeroAt d 56 8
    | 3 => zeroAt d 36 4 && zeroAt d 48 16
    | 4 => bits (fld d 28 4) 31 6 == 0 && zeroAt d 32 8 && zeroAt d 56 8
    | 5 => bits (fld d 32 4) 31 18 == 0 && zeroAt d 56 8
    | 6 => zeroAt d 16 16 && bits (fld d 32 4) 31 16 == 0 && zeroAt d 36 4 && zeroAt d 56 8
    | 7 => bits (fld d 16 8) 31 10 == 0 && zeroAt d 56 8
    | _ => true)

/-- Check 3: `MCAST`, lengths and `SRC_MODE`. -/
def fieldsOk (d : Bytes) : Bool :=
  let op := entOpcode d
  (!entMcast d || (op == 2 && zeroAt d 4 4 && zeroAt d 24 4)) &&
  ((op != 2 && op != 3) || fld d 28 4 != 0) &&
  (op != 5 || bits (fld d 32 4) 17 16 != 3)

/-- The opcode names a connection context. -/
def usesCtx (d : Bytes) : Bool :=
  let op := entOpcode d
  op == 1 || op == 3 || op == 4 || (op == 2 && !entMcast d)

/-- What the checks of a descriptor come to. -/
inductive DescSays where
  | ok
  | fail (status : Nat)
  /-- Its context is in SETUP or being filled (R255). -/
  | wait
  deriving DecidableEq, Repr

/-- The local keys of a descriptor (R157): a buffer of length 0 names none, and those of a POUR have the
lengths that its mould declares. -/
def Block.descKeys (b : Block) (d : Bytes) : List Nat :=
  let op := entOpcode d
  let m := b.mould (bits (fld d 16 8) 9 0)
  if op = 1 ∨ op = 2 ∨ op = 3 then (if fld d 28 4 = 0 then [] else [fld d 32 4])
  else if op = 5 ∨ op = 6 then (if fld d 52 4 = 0 then [] else [fld d 48 4])
  else if op = 7 ∧ m.st = .valid then
    (if m.srcBytes = 0 then [] else [fld d 24 4]) ++ (if m.dstBytes = 0 then [] else [fld d 32 4])
  else []

/-- A local key of the descriptor names a region of another PD (check 6), a `POOL` region included (log
163). -/
def Block.keyElsewhere (b : Block) (qu : Queue) (d : Bytes) (held : Bool) : Bool :=
  (b.descKeys d).any fun key =>
    match b.keyCheck qu.hl key held with
    | .region _ r => r.pd != qu.pd
    | .fail _ => false

/-- No local key of the descriptor is being deregistered (R153). -/
def Block.keysHeld (b : Block) (qu : Queue) (d : Bytes) : Bool :=
  (b.descKeys d).all fun key => !(b.reg (regKey qu.hl (bits key 23 0))).closing

/-- The regions that the local keys of a descriptor name are in the region-key cache; a spilled entry starts
to be filled (R130, R154). -/
def Block.touchKeys (b : Block) (qu : Queue) (d : Bytes) : Bool × Block :=
  (b.descKeys d).foldl (fun (r : Bool × Block) key =>
    match r.2.touchLocal qu.hl key with
    | (some _, b) => (false, b)
    | (none, b) => (r.1, b)) (true, b)

/-- The `SRC_EP` of a PUT with `MCAST` belongs to another PD than the queue's (R260). -/
def Block.srcEpElsewhere (b : Block) (qu : Queue) (d : Bytes) : Bool :=
  let e := b.ep (bits (fld d 48 8) 29 16)
  entOpcode d == 2 && entMcast d && !(e.live && e.fid == qu.fid && e.pd == qu.pd)

/-- Check 8 for a send-queue descriptor (R157, R190). -/
def Block.sendBuffer (b : Block) (qu : Queue) (d : Bytes) (held : Bool) : Nat :=
  let len := fld d 28 4
  let chk (r : Option Nat) : Nat := b.localCheck qu.hl qu.pd (fld d 32 4) (fld d 40 8) len r held
  match entOpcode d with
  | 1 => chk (if b.obj (0x2030 + qu.hl) 5 < len then some rightRead else none)
  | 2 => chk none
  | 3 => chk (some rightLocalWrite)
  | _ => stOk

/-- Check 8 for a receive-queue descriptor (R176, R187). -/
def Block.recvBuffer (b : Block) (qu : Queue) (d : Bytes) (held : Bool) : Nat :=
  let op := entOpcode d
  let len := fld d 52 4
  let addr := fld d 40 8
  let m := b.mctx (mctxKey qu.hl (fld d 32 2))
  if op ≠ 5 ∧ op ≠ 6 then stOk
  else if op = 6 ∧ (addr % 64 ≠ 0 ∨ len % 64 ≠ 0 ∨ len < 16384 ∨ 2 ^ 30 < len) then stMalformed
  else
    let st := b.localCheck qu.hl qu.pd (fld d 48 4) addr len (some rightLocalWrite) held
    if st ≠ stOk then st
    else if !m.live || m.fid ≠ qu.fid then stAccess
    else if m.pd ≠ qu.pd then stPdMismatch
    else stOk

/-- The status of a descriptor whose context is ABORTED, which no rule states (log 31), or FLUSHED for
one in ERROR: check 7. -/
def Block.ctxEnds (b : Block) (x : Ctx) : Option (Nat × Block) :=
  match x.st with
  | .error => some (stFlushed, b)
  | .aborted => some (b.choose 256)
  | _ => none

/-- Checks 1 to 8 of R261 for a descriptor of a queue, and the waits of R255: for its region, whose entry checks 6 and
8 need, and, once the checks are passed, for its context. -/
def Block.descCheck (b : Block) (qu : Queue) (t : Taken) : DescSays × Block :=
  let d := t.bytes
  let op := entOpcode d
  let c := bits (fld d 4 4) 25 0
  let x := b.ctx c
  let uses := usesCtx d
  if !opAllowed qu.ty op then (.fail stBadOpcode, b)
  else if !reservedOk d || !fieldsOk d then (.fail stMalformed, b)
  else if op = 4 ∧ 7 < bits (fld d 28 4) 3 0 then (.fail stBadOpcode, b)
  else if t.flushed then (.fail stFlushed, b)
  else if uses && (x.st == .free || x.fid != qu.fid) then (.fail stAccess, b)
  else
    let (cached, b) := b.touchKeys qu d
    if !cached then (.wait, b)
    else if (uses && (b.ep x.localEp).pd != qu.pd) || b.srcEpElsewhere qu d ||
        b.keyElsewhere qu d t.held then
      (.fail stPdMismatch, b)
    else
      match (if uses then b.ctxEnds x else none) with
      | some (st, b) => (.fail st, b)
      | none =>
        let st := if qu.ty = 0 then b.sendBuffer qu d t.held else b.recvBuffer qu d t.held
        if st ≠ stOk then (.fail st, b)
        else if uses && x.st == .setup then (.wait, b)
        else
          let (cached, b) := if uses then b.touchCtx c else (true, b)
          (if cached then .ok else .wait, b)

/-- A descriptor joins the taken ones of queue `q`, and is checked (R261): what fails then is completed in
issue order. -/
def Block.takeDesc (b : Block) (q : Nat) (e : Nat × Bytes) : Block :=
  let qu := b.queue q
  let (traced, b) := b.traceTake qu.fid q
  let t : Taken :=
    { idx := e.1, bytes := e.2, at_ := b.ftime, traced := traced, held := b.keysHeld qu e.2 }
  let (verdict, b) := b.descCheck qu t
  let failed := match verdict with
    | .fail st => some st
    | _ => none
  b.modQueue q fun x => { x with taken := x.taken ++ [{ t with failed := failed }] }

/-- What the checks of a taken descriptor come to when its turn comes: what failed when it was taken, and
otherwise what has become of its context since. -/
def Block.headSays (b : Block) (qu : Queue) (t : Taken) : DescSays × Block :=
  match t.failed with
  | some st => (.fail st, b)
  | none => b.descCheck qu t

/-! ## Issue (R255) -/

/-- A send-queue descriptor is issued: it is outstanding, with its place reserved. -/
def Block.startSend (b : Block) (q : Nat) (t : Taken) : Block :=
  let qu := b.queue q
  let b := (b.popTaken q).modQueue q fun x => { x with outstanding := x.outstanding ++ [t.idx] }
  if qu.notify then b.reserve qu.eq else b

/-- Complete the undefined opcodes at the head of queue `q`, which no command of their own issues
(R261 check 1); `fuel` bounds the taken descriptors. -/
def Block.sweepBad (b : Block) (q : Nat) : Nat → Block
  | 0 => b
  | n + 1 =>
    match (b.queue q).taken with
    | t :: _ =>
      if b.live ∧ b.fnRuns (b.queue q).fid ∧ 8 < entOpcode t.bytes then
        (if b.headPlace q then (b.finishHead q t stBadOpcode).sweepBad q n
         else b.finishHead q t stBadOpcode)
      else b
    | [] => b

/-- A descriptor that a transport engine takes: a SEND, PUT, GET or ATOMIC (R19). -/
def takesEngine (d : Bytes) : Bool := [1, 2, 3, 4].contains (entOpcode d)
/-- A descriptor of queue `q` whose payload a host DMA agent reads: an eager SEND or a PUT that carries bytes (R19,
R190). -/
def Block.takesAgent (b : Block) (q : Nat) (d : Bytes) : Bool :=
  let len := fld d 28 4
  len != 0 &&
    (entOpcode d == 2 || (entOpcode d == 1 && decide (len ≤ b.obj (0x2030 + (b.queue q).hl) 5)))

/-- The head descriptor of queue `q`, of those that `pick` chooses, passes its checks and could be issued
now (R255). -/
def Block.headReady (b : Block) (q : Nat) (qu : Queue) (pick : Bytes → Bool) : Bool :=
  match qu.taken with
  | [] => false
  | t :: _ =>
    pick t.bytes && qu.live && b.fnRuns qu.fid && b.headPlace q && (b.headSays qu t).1 == .ok

/-- Transport engines of a region in service (R19). -/
def Block.tpUnits (b : Block) (r : Nat) : Nat :=
  (b.liveUnits (blkCluster r 2)).length + (b.liveUnits (blkCluster r 3)).length
/-- Host DMA agents of a region in service (R19). -/
def Block.agentUnits (b : Block) (r : Nat) : Nat := (b.liveUnits (blkCluster r 9)).length

/-- A unit takes the head descriptor of queue `q` next, among those that `pick` says wait for one of `n`
(R254): `fn` is the function that such a unit of a region served last, and `last` the queue. Descriptors wait where
there are fewer units than send queues with such a descriptor ready (log 145). -/
def Block.unitTurn (b : Block) (q n : Nat) (pick : Nat → Bytes → Bool) (fn : Tbl Nat)
    (last : Fn → Tbl Nat) : Bool :=
  let home := (b.queue q).home
  let ready := b.queues.filter fun e => e.2.ty == 0 && e.2.home == home && b.headReady e.1 e.2 (pick e.1)
  decide (ready.length ≤ n) ||
    servedNext (Tbl.get 0 fn home) (fun fid p => Tbl.get 0 (last (b.fn fid)) p) ready == some q

/-- The turn of descriptor `d` at the head of queue `q` has come at the host DMA agents, where it needs one (R254). -/
def Block.agentTurn (b : Block) (q : Nat) (d : Bytes) : Bool :=
  !b.takesAgent q d ||
    b.unitTurn q (b.agentUnits (b.queue q).home) b.takesAgent b.agentFn Fn.lastAgent

/-- The turn of descriptor `d` at the head of queue `q` has come at each kind of unit that it needs (R254). One that
waits for an agent keeps no transport engine from another. -/
def Block.issueTurn (b : Block) (q : Nat) (d : Bytes) : Bool :=
  b.agentTurn q d &&
    (!takesEngine d || b.unitTurn q (b.tpUnits (b.queue q).home)
      (fun q d => takesEngine d && b.agentTurn q d) b.issueFn Fn.lastIssued)

/-- A transport engine has taken descriptor `d` at the head of queue `q`, and a host DMA agent one whose payload it
reads (R254): each kind of unit moves its own turn. -/
def Block.noteIssue (b : Block) (q : Nat) (d : Bytes) : Block :=
  let x := b.queue q
  let b := { b.modFn x.fid fun f => { f with lastIssued := Tbl.set 0 f.lastIssued x.prio q } with
    issueFn := Tbl.set 0 b.issueFn x.home x.fid }
  if b.takesAgent q d then
    { b.modFn x.fid fun f => { f with lastAgent := Tbl.set 0 f.lastAgent x.prio q } with
      agentFn := Tbl.set 0 b.agentFn x.home x.fid }
  else b

/-- Issue the descriptor at the head of queue `q`, where its opcode is `op` and it is ready; `f` is the
operation's start. -/
def Block.issueHead (b : Block) (q op : Nat) (pick : Bytes → Bool)
    (f : Block → Queue → Taken → Block) : Block :=
  let b := b.sweepBad q 8
  let qu := b.queue q
  match qu.taken with
  | [] => b
  | t :: _ =>
    if !b.live || !qu.live || !b.fnRuns qu.fid || entOpcode t.bytes ≠ op || !pick t.bytes ||
        b.headAwaits q then b
    else
      match b.headSays qu t with
      | (.wait, b) => b
      | (.fail st, b) => (b.finishHead q t st).sweepBad q 8
      | (.ok, b) =>
        if !b.issueTurn q t.bytes then b
        else (f (if takesEngine t.bytes then b.noteIssue q t.bytes else b) qu t).sweepBad q 8

/-- An operation of a send queue is issued, once its place is there: `mk` builds it, and its first
payload starts to be read (R142, R513). -/
def Block.issueOp (b : Block) (q : Nat) (qu : Queue) (t : Taken) (kind : OpKind) (len : Nat) : Block :=
  if !b.headPlace q then b
  else
    let d := t.bytes
    let o : Op :=
      { kind := kind, hl := qu.hl, fid := qu.fid, q := q, idx := t.idx, ctx := bits (fld d 4 4) 25 0,
        desc := d, len := len, addr := fld d 40 8, lkey := fld d 32 4, remoteAddr := fld d 16 8,
        rkey := fld d 24 4, trace := t.times b.ftime }
    let (n, b) := (b.startSend q t).addOp o
    if hasPayload kind.code && len != 0 then b.readPayload n 0 (o.pktLen 0) else b

/-! ## Commands -/

/-- POLL (R248, R251 to R253): a poll read of queue `q` ends. -/
def execPoll (q : Nat) (entries : Option (List Bytes)) (s : State) :
    Host.Outcome State Fault Refusal :=
  runR (fun b =>
    let x := b.queue q
    if x.ty = 2 ∨ !b.mayRead q then b
    else
      let b := b.payRead q
      match entries with
      | none => b.readFailed q
      | some l =>
        let n := min 8 (2 ^ x.log - x.c)
        let (new, c, ph) := takeNew x.log (8 - x.taken.length) x.c x.phase (l.take n)
        if new.isEmpty then b.readEmpty q
        else
          let b := b.modQueue q fun x =>
            { x with c := c, phase := ph, interval := x.pollBase, pollAt := none }
          (new.foldl (fun b e => b.takeDesc q e) b).sweepBad q 8) s

/-- The entries at the front that software has returned (R264). -/
def returned (l : List Bytes) : Nat := (l.takeWhile entOwner).length

/-- EQ_FREE_READ (R264, R193, R267): the read ahead of an event queue ends. Parked notifications move
first, then what waits for a place, then EVENTS_LOST. -/
def execEqFreeRead (q : Nat) (entries : Option (List Bytes)) (s : State) :
    Host.Outcome State Fault Refusal :=
  runR (fun b =>
    let x := b.queue q
    if x.ty ≠ 2 ∨ !b.mayRead q then b
    else
      let b := b.payRead q
      match entries with
      | none => b.readFailed q
      | some l =>
        let seen := l.take (8 - x.eqFree)
        let n := returned seen
        if n = 0 then b.readEmpty q
        else
          let free := x.eqFree + n
          let moved := x.parked.take free
          let b := b.setQueue q
            { x with eqFree := free, parked := x.parked.drop moved.length, interval := x.pollBase,
                     pollAt := some (if n < seen.length then b.now + x.pollBase else b.now) }
          let b := (b.eqBatch q moved).servePlaces
          let b := b.functions.foldl (fun b fid =>
            if b.evtQueueOf fid = some q then b.flushLost fid else b) b
          b.queues.foldl (fun b e => if e.2.eq = q ∧ e.2.notify then b.sweepBad e.1 8 else b) b) s

/-- NOP (R257): it completes when it is issued. -/
def execNop (q : Nat) (s : State) : Host.Outcome State Fault Refusal :=
  runR (fun b => b.issueHead q 0 (fun _ => true) fun b _ t =>
    b.finishHead q t stOk) s

/-- SEND (R189, R190, R258): eager up to `EAGER_THRESHOLD`, rendezvous above it. -/
def execSend (q : Nat) (s : State) : Host.Outcome State Fault Refusal :=
  runR (fun b => b.issueHead q 1 (fun _ => true) fun b qu t =>
    let len := fld t.bytes 28 4
    b.issueOp q qu t (if b.obj (0x2030 + qu.hl) 5 < len then .rts else .eager) len) s

/-- PUT (R159, R258). -/
def execPut (q : Nat) (s : State) : Host.Outcome State Fault Refusal :=
  runR (fun b => b.issueHead q 2 (fun d => !entMcast d) fun b qu t =>
    b.issueOp q qu t .put (fld t.bytes 28 4)) s

/-- PUT with `MCAST` set (R115, R260). -/
def execPutMcast (q : Nat) (s : State) : Host.Outcome State Fault Refusal :=
  runR (fun b => b.issueHead q 2 entMcast fun b qu t =>
    b.issueOp q qu t .mcast (fld t.bytes 28 4)) s

/-- GET (R159, R258). -/
def execGet (q : Nat) (s : State) : Host.Outcome State Fault Refusal :=
  runR (fun b => b.issueHead q 3 (fun _ => true) fun b qu t =>
    b.issueOp q qu t .get (fld t.bytes 28 4)) s

/-- ATOMIC (R160, R258). -/
def execAtomic (q : Nat) (s : State) : Host.Outcome State Fault Refusal :=
  runR (fun b => b.issueHead q 4 (fun _ => true) fun b qu t => b.issueOp q qu t .atomic 0) s

/-- LOCAL_FENCE (R169): it completes once every operation before it on the queue has completed. -/
def execLocalFence (q : Nat) (s : State) : Host.Outcome State Fault Refusal :=
  runR (fun b => b.issueHead q 8 (fun _ => true) fun b qu t =>
    if qu.outstanding.isEmpty && b.headPlace q then b.completeHead q t stOk else b) s

/-- The posted receive that a POST_RECV descriptor asks for (R176, R259). -/
def postedOf (q : Nat) (t : Taken) (now : Nat) : Posted :=
  let d := t.bytes
  { q := q, idx := t.idx, desc := d, tag := BitVec.ofNat 64 (fld d 16 8),
    ignore := BitVec.ofNat 64 (fld d 24 8), srcMode := bits (fld d 32 4) 17 16, srcFa := fld d 36 4,
    lkey := fld d 48 4, addr := fld d 40 8, len := fld d 52 4, trace := t.times now }

/-- A receive-queue descriptor that passed its checks takes a posted-receive list entry, or completes
with CAPACITY (R176, R187); `free` says that it needs none. -/
def Block.intoList (b : Block) (q : Nat) (qu : Queue) (t : Taken) (free : Bool) (f : Block → Nat → Block) :
    Block :=
  if free || b.postedRoom qu.fid then f (b.popTaken q) (mctxKey qu.hl (fld t.bytes 32 2))
  else b.finishHead q t stCapacity

/-- POST_RECV (R176, R178). -/
def execPostRecv (q : Nat) (s : State) : Host.Outcome State Fault Refusal :=
  runR (fun b => b.issueHead q 5 (fun _ => true) fun b qu t =>
    let r := postedOf q t b.ftime
    b.intoList q qu t (b.unexpectedFor (mctxKey qu.hl (fld t.bytes 32 2)) r).isSome fun b m =>
      b.takeRecv m r) s

/-- POST_OVERFLOW (R187): a host buffer is lent to a matching context. -/
def execPostOverflow (q : Nat) (s : State) : Host.Outcome State Fault Refusal :=
  runR (fun b => b.issueHead q 6 (fun _ => true) fun b qu t =>
    b.intoList q qu t false fun b m =>
      let d := t.bytes
      let o : OvfBuf :=
        { q := q, idx := t.idx, desc := d, lkey := fld d 48 4, addr := fld d 40 8, len := fld d 52 4,
          trace := t.times b.ftime }
      b.modMctx m fun x => { x with overflow := x.overflow ++ [o] }) s

end Sys2Proof.Machine
end

