-- ==== Sys2Proof/Machine/Commands.lean ====
section
/-! DEFINITION. The command block of a function (R234 to R236): protection domains, endpoints,
connections, regions, matching contexts, queues, pantries, and the sampling commands (R415). -/

namespace Sys2Proof.Machine

/-! ## The frame of a command (R234, R235) -/

/-- How the start of a command ends: with a status and results, or in a wait. -/
inductive CmdEnds where
  | done (status : Nat) (res0 : Option Nat := none) (res1 : Option Nat := none)
  | waits (w : WaitCmd)
  deriving DecidableEq, Repr

/-- A result register as `BUSY` falls: the result, or, where the command has none, a value no rule
gives (log 35). -/
def Block.resultReg (b : Block) (r : Option Nat) : Nat × Block :=
  match r with
  | some v => (v, b)
  | none => b.choose (2 ^ 64)

/-- The command of a function ends: `BUSY` falls, and the status and the results stand (R234). -/
def Block.cmdDone (b : Block) (fid status : Nat) (res0 res1 : Option Nat) : Block :=
  let (v0, b) := b.resultReg res0
  let (v1, b) := b.resultReg res1
  b.modFn fid fun f =>
    { f with wait := none, status := status, res0 := BitVec.ofNat 64 v0, res1 := BitVec.ofNat 64 v1 }

/-- Argument `k` of a command. -/
def Fn.arg (f : Fn) (k : Nat) : Nat := (nth 0 f.args k).toNat

/-- The arguments have no bit outside their fields (R225, R234). -/
def Fn.argsOk (f : Fn) (fields : List Nat) : Bool :=
  (List.range 4).all fun k => f.arg k ||| nth 0 fields k == nth 0 fields k

/-- Bits [msb:lsb] as a mask. -/
def field (msb lsb : Nat) : Nat := (2 ^ (msb + 1 - lsb) - 1) * 2 ^ lsb

/-- A write of `code` to `CMD_CODE` of a function starts its command `f`, whose arguments lie in
`fields`; `pf` says that only a PF may issue it (R234, R235). -/
def Block.command (b : Block) (fid code : Nat) (pf : Bool) (fields : List Nat)
    (f : Block → Fn → CmdEnds × Block) : Block :=
  let x := b.fn fid
  if !b.live || !b.fnUp fid then b
  else if x.wait.isSome then (b.modFn fid fun x => { x with overrun := true }).badAccess fid 0x140 1 true
  else
    let b := b.modFn fid fun x => { x with lastCode := code }
    if pf && fidFn fid != 0 then b.cmdDone fid stAccess none none
    else if !x.argsOk fields then b.cmdDone fid stMalformed none none
    else
      match f b x with
      | (.done st r0 r1, b) => b.cmdDone fid st r0 r1
      | (.waits w, b) => b.modFn fid fun x => { x with wait := some w }

/-- A command with one status and no result. -/
def endsWith (st : Nat) (b : Block) : CmdEnds × Block := (.done st, b)

/-! ## Protection domains (R148, R149) -/

/-- PD_CREATE. IDs go up from 1, and on from the last one given (log 161). -/
def Block.pdCreate (b : Block) (fid : Nat) : CmdEnds × Block :=
  let hl := fidLink fid
  let all := Tbl.count (fun k p => k / 2 ^ 20 == hl && p.live) b.pds
  let here := Tbl.count (fun _ p => p.live && p.fid == fid) b.pds
  if !b.within fid 4 0x08 here all 1 then endsWith stCapacity b
  else
    let free (n : Nat) : Bool := n != 0 && b.pd (pdKey hl n) == {}
    let start := (b.link hl).nextPd
    let k := b.pds.length + 2
    match ((List.range k).map fun i => (start + i) % 2 ^ 20).find? free with
    | none => endsWith stCapacity b
    | some n =>
      let b := (b.setPd (pdKey hl n) { live := true, fid := fid }).modLink hl fun l =>
        { l with nextPd := n + 1 }
      (.done stOk (some n), b)

/-- Something is bound to the PD. -/
def Block.pdBound (b : Block) (hl pd : Nat) : Bool :=
  b.eps.any (fun e => e.2.live && e.2.hl == hl && e.2.pd == pd) ||
  b.queues.any (fun e => e.2.live && e.2.hl == hl && e.2.pd == pd) ||
  b.ctxs.any (fun e => ctxLink e.1 == hl && e.2.st != .free && (b.ep e.2.localEp).pd == pd) ||
  b.regs.any (fun e => e.1 / 2 ^ 24 == hl && e.2.live && e.2.pd == pd) ||
  b.mctxs.any (fun e => e.1 / 2 ^ 16 == hl && e.2.live && e.2.pd == pd)

/-- PD_DESTROY. -/
def Block.pdDestroy (b : Block) (fid pd : Nat) : CmdEnds × Block :=
  let hl := fidLink fid
  if !b.pdOk fid pd then endsWith stAccess b
  else if b.pdBound hl pd then endsWith stCapacity b
  else endsWith stOk (b.setPd (pdKey hl pd) {})

/-! ## Endpoints (R155, R217) -/

/-- The partition of a function's new endpoint: a PF names it, a VF has its own (R217). -/
def Block.epPartition (b : Block) (fid named : Nat) : Nat :=
  if fidFn fid = 0 then named else (b.vfRec fid).get 0x30

/-- EP_CREATE; `named` is none for `ANY`. -/
def Block.epCreate (b : Block) (fid : Nat) (named : Option Nat) (pd part : Nat) : CmdEnds × Block :=
  let hl := fidLink fid
  let all := Tbl.count (fun _ e => e.live && e.hl == hl) b.eps
  let here := Tbl.count (fun _ e => e.live && e.fid == fid) b.eps
  let base := b.quota hl 2
  let lowest := ((List.range (min (b.eps.length + 1) (b.quota hl 3))).map (base + ·)).find? fun e =>
    b.ep e == {}
  let p := b.epPartition fid part
  let make (e : Nat) : CmdEnds × Block :=
    if !b.pdOk fid pd then endsWith stPdMismatch b
    else if fidFn fid = 0 ∧ !bit (b.quota hl 16) p then endsWith stFenced b
    else (.done stOk (some e),
      b.setEp e { live := true, hl := hl, fid := fid, pd := pd, partition := p })
  if !b.within fid 3 0x04 here all 1 then endsWith stCapacity b
  else
    match lowest, named with
    | none, _ => endsWith stCapacity b
    | some e, none => make e
    | some _, some e => if b.epInRange hl e && b.ep e == {} then make e else endsWith stAccess b

/-- The endpoint is the function's. -/
def Block.epOf (b : Block) (fid e : Nat) : Bool := (b.ep e).live && (b.ep e).fid == fid

/-- EP_DESTROY. -/
def Block.epDestroy (b : Block) (fid e : Nat) : CmdEnds × Block :=
  if !b.epOf fid e then endsWith stAccess b
  else if b.ctxs.any fun x =>
      ctxLink x.1 == fidLink fid && x.2.st != .free && x.2.localEp == e then endsWith stCapacity b
  else endsWith stOk (b.setEp e {})

/-- EP_MCAST_BIND (R155). A spilled region is filled before its entry is judged (R154, log 165). -/
def Block.epBind (b : Block) (fid e key : Nat) : CmdEnds × Block :=
  let x := b.ep e
  if !b.epOf fid e then endsWith stAccess b
  else if key = 0 then endsWith stOk (b.setEp e { x with mcastKey := none })
  else
    match b.keyCheck (fidLink fid) key with
    | .fail st => endsWith st b
    | .region k r =>
      if r.spilled then (.waits (.mcastBind e key), b.fillReg k)
      else if r.pool then endsWith stKeyInvalid b
      else if r.pd ≠ x.pd then endsWith stPdMismatch b
      else endsWith stOk (b.setEp e { x with mcastKey := some key })

/-! ## Connections (R122 to R125) -/

/-- A free context index below the pantry's entry count, taken from `start` on. -/
def Block.freeCtxIndex (b : Block) (hl start count : Nat) : Option Nat :=
  ((List.range (min count (b.ctxs.length + 1))).map fun i => (start + i) % count).find? fun i =>
    (b.ctx (hl * 2 ^ 24 + i)).st == .free

/-- CTX_CREATE (R124): the parameters of `ARG2` are taken apart, or the defaults stand. The order of its
refusals is the model's (log 160). -/
def Block.ctxCreate (b : Block) (fid ep fa arg : Nat) : CmdEnds × Block :=
  let hl := fidLink fid
  let dflt := bit arg 63
  let rto := if dflt then 64 else bits arg 23 0
  let wait := if dflt then 16 else bits arg 47 32
  let count := (b.link hl).ctxPantry.count
  let all := Tbl.count (fun k x => ctxLink k == hl && x.st != .free) b.ctxs
  let here := Tbl.count (fun _ x => x.fid == fid && x.st != .free) b.ctxs
  if !b.epOf fid ep then endsWith stAccess b
  else if rto < 8 ∨ 16000 < rto ∨ wait = 0 then endsWith stMalformed b
  else if count = 0 ∨ !b.within fid 5 0x0C here all 1 then endsWith stCapacity b
  else
    let (start, b) := b.choose count
    match b.freeCtxIndex hl start count with
    | none => endsWith stCapacity b
    | some i =>
      let c := hl * 2 ^ 24 + i
      let (r, b) := b.random 4
      let ipsn := BitVec.ofNat 32 (leNat r)
      let (home, b) := b.newHome b.ctxHomes
      let x : Ctx :=
        { st := .setup, fid := fid, localEp := ep, remoteFa := fa, rto := rto,
          retryLimit := if dflt then 7 else bits arg 27 24,
          rnrLimit := if dflt then 7 else bits arg 31 28, rnrWait := wait, localIpsn := ipsn,
          nextPsn := ipsn, home := home, used := b.now }
      (.done stOk (some c) (some ipsn.toNat), ((b.ctxRoom hl).setCtx c x).rewritten 4 c)

/-- The context is a context of the function that is not FREE, on its host link and within the
pantry. -/
def Block.ctxOwned (b : Block) (fid c : Nat) : Bool :=
  let x := b.ctx c
  ctxLink c == fidLink fid && decide (c % 2 ^ 24 < (b.link (fidLink fid)).ctxPantry.count) &&
    x.st != .free && x.fid == fid

/-- CTX_CONNECT (R124, R134, R135, R180). It needs no fill of a spilled context (log 157). -/
def Block.ctxConnect (b : Block) (fid c remote : Nat) (ipsn : BitVec 32) : CmdEnds × Block :=
  let x := b.ctx c
  if !b.ctxOwned fid c || x.st != .setup then endsWith stAccess b
  else
    endsWith stOk (b.setCtx c
      { x with st := .active, remoteCtx := remote, base := ipsn, map := 0, nextMsn := 0,
               nextMatch := 0, used := b.now })

/-- Requests that serve packets of the context are in flight. -/
def Block.ctxBusy (b : Block) (c : Nat) : Bool := b.dma.any fun d => d.purpose.context == some c

/-- Descriptors taken for the context, and not issued, are to complete with FLUSHED (R125). -/
def Block.flushTaken (b : Block) (fid c : Nat) : Block :=
  { b with queues := Tbl.map {} (fun _ q =>
      if q.live ∧ q.fid = fid then
        { q with taken := q.taken.map fun t =>
            if usesCtx t.bytes && bits (fld t.bytes 4 4) 25 0 == c then { t with flushed := true }
            else t }
      else q) b.queues }

/-- A context is destroyed (R125, R138, R196). -/
def Block.destroyCtx (b : Block) (c : Nat) : Block :=
  let x := b.ctx c
  let b := if x.st = .setup ∨ x.st = .active then
      ((b.leaveActive c .error 0).sieveLeave c).flushOps c
    else b
  (b.flushTaken x.fid c).freeCtx c

/-- The contexts that a CTX_DESTROY frees. -/
def Block.ctxTargets (b : Block) (fid c : Nat) (allAborted : Bool) : List Nat :=
  if allAborted then
    (b.ctxs.filter fun e => e.2.fid == fid && e.2.st == .aborted).map (·.1)
  else [c]

/-- CTX_DESTROY ends once no packet of its contexts is in hand. -/
def Block.ctxDestroyTry (b : Block) (fid c : Nat) (allAborted : Bool) : CmdEnds × Block :=
  let cs := b.ctxTargets fid c allAborted
  if cs.any b.ctxBusy then (.waits (.ctxDestroy c allAborted), b)
  else endsWith stOk (cs.foldl (fun b c => b.destroyCtx c) b)

/-- The code of a context's state (R236). -/
def CtxSt.code : CtxSt → Nat
  | .free => 0
  | .setup => 1
  | .active => 2
  | .error => 3
  | .aborted => 4

/-- CTX_QUERY. -/
def Block.ctxQuery (b : Block) (fid c : Nat) : CmdEnds × Block :=
  let x := b.ctx c
  if ctxLink c ≠ fidLink fid ∨ (b.link (fidLink fid)).ctxPantry.count ≤ c % 2 ^ 24 ∨
      (x.st ≠ .free ∧ x.fid ≠ fid) then endsWith stAccess b
  else (.done stOk (some (x.st.code + (if x.st = .error then x.errStatus else 0) * 256)), b)

/-! ## Regions (R150 to R154, R164) -/

/-- The region index may be registered: FREE, and out of its quarantine (R151). -/
def Reg.takeable (r : Reg) (now : Nat) : Bool :=
  !r.live &&
  (match r.freedAt with
    | some (t, q) => decide (t + q ≤ now)
    | none => true)

/-- The index that a registration takes (R151). -/
def Block.freeRegIndex (b : Block) (hl : Nat) : Option Nat :=
  let count := (b.link hl).regPantry.count
  let ok (i : Nat) : Bool := (b.reg (regKey hl i)).takeable b.now
  match (List.range (min count (b.regs.length + 1))).find? fun i =>
      ok i && (b.reg (regKey hl i)).freedOrder == 0 with
  | some i => some i
  | none =>
    let l := b.regs.filter fun e =>
      e.1 / 2 ^ 24 == hl && decide (e.1 % 2 ^ 24 < count) && e.2.takeable b.now
    (l.foldl (fun (a : Option (Nat × Nat)) e =>
      match a with
      | none => some (e.2.freedOrder, e.1 % 2 ^ 24)
      | some x => if e.2.freedOrder < x.1 then some (e.2.freedOrder, e.1 % 2 ^ 24) else a) none
      ).map (·.2)

/-- What REG_REGISTER asks for. -/
structure RegAsk where
  pd : Nat
  pool : Bool
  rights : Nat
  relaxed : Bool
  pasid : Option Nat
  start : Nat
  length : Nat
  dmaAddr : Nat
  deriving DecidableEq, Repr

/-- The parameters of R150 are within their ranges; `quota` is the function's pool quota in words. -/
def regRangeOk (a : RegAsk) (quota : Nat) : Bool :=
  if a.pool then
    a.start % 8 == 0 && a.length % 8 == 0 && decide (8 ≤ a.length) && decide (a.length / 8 ≤ quota) &&
      a.dmaAddr == 0
  else decide (1 ≤ a.length) && decide (a.length ≤ 2 ^ 40)

/-- REG_REGISTER. The order of its refusals is the model's (log 162). -/
def Block.regRegister (b : Block) (fid : Nat) (a : RegAsk) : CmdEnds × Block :=
  let hl := fidLink fid
  let words (p : Nat → Reg → Bool) : Nat :=
    b.regs.foldl (fun n e => if e.2.live && e.2.pool && p e.1 e.2 then n + e.2.length / 8 else n) 0
  let all := Tbl.count (fun k r => k / 2 ^ 24 == hl && r.live) b.regs
  let here := Tbl.count (fun _ r => r.live && r.fid == fid) b.regs
  let poolQuota := min (b.quota hl 14) (b.cap fid 0x28 (b.quota hl 14))
  if !regRangeOk a poolQuota then endsWith stMalformed b
  else if !b.pdOk fid a.pd then endsWith stPdMismatch b
  else if a.pasid.isSome ∧ !(b.fn (fidOf hl 0)).pasidEn then endsWith stAccess b
  else if !b.within fid 7 0x10 here all 1 then endsWith stCapacity b
  else if a.pool ∧ !b.within fid 14 0x28 (words fun _ r => r.fid == fid)
      (words fun k _ => k / 2 ^ 24 == hl) (a.length / 8) then endsWith stCapacity b
  else
    match b.freeRegIndex hl with
    | none => endsWith stCapacity b
    | some i =>
      let (place, b) := if a.pool then b.poolPlace (a.length / 8) else (some 0, b)
      match place with
      | none => endsWith stCapacity b
      | some w =>
        let k := regKey hl i
        let gen := (b.reg k).gen
        let b := (b.regRoom hl).setReg k
          { live := true, gen := gen, fid := fid, pd := a.pd, pool := a.pool, rights := a.rights,
            relaxed := a.relaxed, pasid := if a.pool then none else a.pasid, start := a.start,
            length := a.length, dmaAddr := a.dmaAddr, poolWord := w, used := b.now }
        (.done stOk (some (i + gen * 2 ^ 24)) (if a.pool then some w else none),
         (b.rewritten 8 k).rewritten 11 k)

/-- An outstanding operation of the function names the key as a local buffer (R153): a descriptor that was
taken after the deregistration began is none. -/
def Block.keyInUse (b : Block) (fid key : Nat) : Bool :=
  let hl := fidLink fid
  b.queues.any (fun e => e.2.live && e.2.fid == fid && e.2.taken.any fun t =>
    t.held && (b.descKeys t.bytes).contains key) ||
  b.placeWait.any (fun w =>
    match w.2 with
    | .completion q _ d _ _ _ _ => (b.queue q).fid == fid && (b.descKeys d).contains key
    | _ => false) ||
  b.ops.any (fun o => o.2.fid == fid && o.2.kind != .fin && o.2.kind != .atomic && !o.2.closed &&
    o.2.len != 0 && o.2.lkey == key) ||
  b.mctxs.any (fun e => e.1 / 2 ^ 16 == hl && e.2.fid == fid &&
    (e.2.posted.any (fun r => r.len != 0 && r.lkey == key) ||
      e.2.overflow.any fun o => o.lkey == key)) ||
  b.inflight.any (fun e => (b.mctx e.2.mctx).fid == fid &&
    (match e.2.recv with
      | some r => r.len != 0 && r.lkey == key
      | none => false)) ||
  b.moulds.any (fun e => e.2.pours.any fun p => p.fid == fid &&
    ((e.2.srcBytes != 0 && fld p.desc 24 4 == key) || (e.2.dstBytes != 0 && fld p.desc 32 4 == key)))

/-- REG_DEREGISTER ends once nothing uses the region any more (R153). Packets stashed for its fill arrive
again, and find the key stale. -/
def Block.deregTry (b : Block) (fid key : Nat) : CmdEnds × Block :=
  let hl := fidLink fid
  let k := regKey hl (bits key 23 0)
  let past := (b.fillStash ++ b.delivery).any fun a => a.passed == some (k, (b.reg k).gen)
  if past || b.keyInUse fid key || b.dma.any fun d => d.key == some k then (.waits (.regDeregister key), b)
  else endsWith stOk ((b.freeRegion k).unstash fun a => a.awaits == .region k)

/-- REG_DEREGISTER: the key is checked, and no later check finds the region (R152, R153). -/
def Block.regDeregister (b : Block) (fid key : Nat) : CmdEnds × Block :=
  let hl := fidLink fid
  let idx := bits key 23 0
  let r := b.reg (regKey hl idx)
  if (b.link hl).regPantry.count ≤ idx ∨ bits key 31 24 = 0 then endsWith stKeyInvalid b
  else if bits key 31 24 ≠ r.gen then endsWith stKeyStale b
  else if !r.live then endsWith stKeyInvalid b
  else if r.fid ≠ fid then endsWith stAccess b
  else (b.setReg (regKey hl idx) { r with closing := true }).deregTry fid key

/-! ## Matching contexts (R174, R194, R195) -/

/-- MCTX_CREATE. Where several of its refusals hold, the first of ACCESS, PD_MISMATCH and CAPACITY stands: the rules
give no order (log 181). -/
def Block.mctxCreate (b : Block) (fid id pd : Nat) : CmdEnds × Block :=
  let hl := fidLink fid
  let k := mctxKey hl id
  let all := Tbl.count (fun k m => k / 2 ^ 16 == hl && m.live) b.mctxs
  let here := Tbl.count (fun _ m => m.live && m.fid == fid) b.mctxs
  if (b.mctx k).live then endsWith stAccess b
  else if !b.pdOk fid pd then endsWith stPdMismatch b
  else if !b.within fid 9 0x14 here all 1 then endsWith stCapacity b
  else
    let (home, b) := b.newHome b.mctxHomes
    endsWith stOk (b.setMctx k { live := true, fid := fid, pd := pd, home := home })

/-- MCTX_DESTROY. -/
def Block.mctxDestroy (b : Block) (fid id : Nat) : CmdEnds × Block :=
  let k := mctxKey (fidLink fid) id
  let m := b.mctx k
  if !m.live || m.fid ≠ fid then endsWith stAccess b else endsWith stOk (b.destroyMctx k)

/-- The completion of a matched receive waits for its notification place (R193, R194). -/
def Block.recvWaits (b : Block) (q idx : Nat) : Bool :=
  b.placeWait.any fun w =>
    match w.2 with
    | .completion q' idx' _ _ _ _ matched => q' == q && idx' == idx && matched
    | _ => false

/-- A POST_RECV at ring index `idx` that a poll has taken, which passed its checks and is not issued yet (R194, R255,
R261). -/
def Block.takenRecv (b : Block) (q idx : Nat) : Option Taken :=
  if b.placeWait.any fun w =>
      match w.2 with
      | .head q' idx' _ => q' == q && idx' == idx
      | _ => false
    then none
  else (b.queue q).taken.find? fun t => t.idx == idx && entOpcode t.bytes == 5 && t.failed.isNone

/-- RECV_CANCEL (R194). -/
def Block.recvCancel (b : Block) (fid q idx : Nat) : CmdEnds × Block :=
  let qu := b.queue q
  let here (r : Posted) : Bool := r.q == q && r.idx == idx
  if !qu.live || qu.ty ≠ 1 || qu.fid ≠ fid then endsWith stAccess b
  else if 2 ^ qu.log ≤ idx then endsWith stMalformed b
  else
    match b.mctxs.find? fun e => e.2.posted.any here with
    | some (k, m) =>
      match m.posted.find? here with
      | some r =>
        let b := b.setMctx k { m with posted := m.posted.filter fun r => !here r }
        (.done stOk (some 0), (b.count 778 1).flushRecv r)
      | none => endsWith stAccess b
    | none =>
      let matched := b.inflight.any (fun e =>
        match e.2.recv with
        | some r => here r
        | none => false) || b.recvWaits q idx
      if matched then (.done stOk (some 1), b)
      else
        match b.takenRecv q idx with
        | some t =>
          let b := (b.untake q (List.filter fun u => !(u.idx == idx))).count 778 1
          (.done stOk (some 0), (b.flushRecv (postedOf q t b.ftime)).sweepBad q 8)
        | none => (.done stAccess (some 0), b)

/-! ## Queues (R243, R244) -/

/-- What Q_CREATE asks for. -/
structure QAsk where
  base : Nat
  ty : Nat
  notify : Bool
  log : Nat
  prio : Nat
  pasid : Option Nat
  pd : Nat
  pollBase : Nat
  pollCeil : Nat
  eq : Nat
  eqValid : Bool
  vector : Nat
  vectorEn : Bool
  deriving DecidableEq, Repr

/-- The limits of R244 whose status is MALFORMED. -/
def QAsk.ok (a : QAsk) (fid : Nat) : Bool :=
  let isEq := a.ty == 2
  decide (a.ty < 3) && decide (4 ≤ a.log) && decide (a.log ≤ 16) &&
  a.base % max 4096 (64 * 2 ^ a.log) == 0 &&
  (if isEq then !a.notify && a.eq == 0 && !a.eqValid
   else (!a.notify || a.eqValid) && a.vector == 0 && !a.vectorEn) &&
  decide (64 ≤ a.pollBase) && decide (a.pollBase ≤ 1000000) && decide (a.pollBase ≤ a.pollCeil) &&
  decide (a.pollCeil ≤ 1000000) && decide (a.vector < vectorCount fid)

/-- Q_CREATE. `PRIO` is ignored for an EQ, which stands at 0 (log 148). A queue in a function-level reset
still counts against the quotas (R270). Which free number a queue gets is the device's choice (R243). -/
def Block.qCreate (b : Block) (fid : Nat) (a : QAsk) : CmdEnds × Block :=
  let hl := fidLink fid
  let all := Tbl.count (fun _ q => q.hl == hl && q != {}) b.queues
  let here := Tbl.count (fun _ q => q.fid == fid && q != {}) b.queues
  if !a.ok fid then endsWith stMalformed b
  else if a.pasid.isSome ∧ !(b.fn (fidOf hl 0)).pasidEn then endsWith stAccess b
  else if !b.pdOk fid a.pd then endsWith stPdMismatch b
  else if a.eqValid ∧ !b.isEq fid a.eq then endsWith stAccess b
  else if !b.within fid 1 0x00 here all 1 then endsWith stCapacity b
  else
    let (start, b) := b.choose 32768
    let free (q : Nat) : Bool := b.queue q == {}
    match ((List.range (min 32768 (b.queues.length + 1))).map fun i => (start + i) % 32768).find? free with
    | none => endsWith stCapacity b
    | some q =>
      let (home, b) := b.newHome b.queueHomes
      let x : Queue :=
        { live := true, ty := a.ty, hl := hl, fid := fid, base := a.base, log := a.log,
          notify := a.notify, prio := if a.ty = 2 then 0 else a.prio, pasid := a.pasid, pd := a.pd, pollBase := a.pollBase,
          pollCeil := a.pollCeil, eq := a.eq, eqValid := a.eqValid, vector := a.vector,
          vectorEn := a.vectorEn, home := home, interval := a.pollBase,
          eqFree := if a.ty = 2 then 2 ^ a.log else 0 }
      (.done stOk (some q), (b.setQueue q x).fallsDue q)

/-! ## Pantries (R128, R154, R211) -/

/-- Something of the host link lives in the pantry. -/
def Block.pantryUsed (b : Block) (hl : Nat) (region : Bool) : Bool :=
  if region then b.regs.any fun e => e.1 / 2 ^ 24 == hl && e.2.live
  else b.ctxs.any fun e => ctxLink e.1 == hl && e.2.st != .free

/-- PANTRY_INSTALL. -/
def Block.pantryInstall (b : Block) (fid : Nat) (region : Bool) (base count : Nat) :
    CmdEnds × Block :=
  let hl := fidLink fid
  if base % 2 ^ 21 ≠ 0 ∨ count % 8192 ≠ 0 ∨ count < 8192 ∨ 2 ^ 24 < count then endsWith stMalformed b
  else if b.pantryUsed hl region then endsWith stAccess b
  else
    let p : Pantry := { on := true, base := base, count := count }
    endsWith stOk ((b.uninstall hl region).modLink hl fun l =>
      if region then { l with regPantry := p } else { l with ctxPantry := p })

/-- PANTRY_REMOVE ends once no read of the pantry is in flight (R211). -/
def Block.pantryRemoveTry (b : Block) (hl : Nat) (region : Bool) : CmdEnds × Block :=
  if b.pantryReading hl fun r => r == region then (.waits (.pantryRemove region), b)
  else endsWith stOk (b.uninstall hl region)

/-- PANTRY_REMOVE. -/
def Block.pantryRemove (b : Block) (fid : Nat) (region : Bool) : CmdEnds × Block :=
  let hl := fidLink fid
  if b.pantryUsed hl region then endsWith stAccess b else b.pantryRemoveTry hl region

/-! ## Sampling (R413, R415 to R419) -/

/-- DUMP_START. A dump that was not running starts its numbers afresh (log 36). -/
def Block.dumpStart (b : Block) (fid arg0 base arg2 : Nat) : CmdEnds × Block :=
  let vector := bits arg0 23 16
  let log := bits arg2 4 0
  let period := bits arg2 63 32
  if base % 64 ≠ 0 ∨ log < 2 ∨ 16 < log ∨ period < 10 ∨ 10000000 < period ∨ vectorCount fid ≤ vector then
    endsWith stMalformed b
  else
    endsWith stOk (b.modFn fid fun f =>
      let d : Dump := if f.dump.on then f.dump else {}
      { f with dump := { d with on := true, base := base, log := log, period := period, slot := 0,
                                vector := vector, vectorEn := bit arg0 24, last := b.ftime } })

/-- DUMP_STOP. -/
def Block.dumpStop (b : Block) (fid : Nat) : CmdEnds × Block :=
  endsWith stOk (b.modFn fid fun f => { f with dump := { f.dump with on := false } })

/-- An event that has no queue (R413). -/
def noQueueEvent (e : Nat) : Bool := (decide (8 ≤ e) && decide (e ≤ 13)) || (decide (16 ≤ e) && decide (e ≤ 18))

/-- CTR_PROGRAM (R413). -/
def Block.ctrProgram (b : Block) (fid arg1 arg2 : Nat) : CmdEnds × Block :=
  let hl := fidLink fid
  let c := bits arg1 11 0
  let ev := bits arg1 23 16
  let scope := bits arg1 25 24
  let r := b.ctrRange hl
  if 18 < ev ∨ 2 < scope ∨ (scope = 0 ∧ arg2 ≠ 0) ∨ (scope = 1 ∧ 2 ^ 7 ≤ arg2) ∨
      (scope = 2 ∧ noQueueEvent ev) then endsWith stMalformed b
  else if c < r.1 ∨ r.1 + r.2 ≤ c then endsWith stAccess b
  else if scope = 1 ∧ ¬(arg2 ≤ 64 ∧ b.fnLive (fidOf hl arg2)) then endsWith stAccess b
  else if scope = 2 ∧ ¬((b.queue arg2).live ∧ (b.queue arg2).hl = hl) then endsWith stAccess b
  else
    let b := { b with ctrEvent := Tbl.set (0, 0, 0) b.ctrEvent c (ev, scope, arg2) }
    endsWith stOk (if bit arg1 31 then { b with counters := Tbl.set 0 b.counters c 0 } else b)

/-- TRACE_START. -/
def Block.traceStart (b : Block) (fid base arg2 arg3 : Nat) : CmdEnds × Block :=
  let log := bits arg2 4 0
  let q := bits arg3 14 0
  let all := bit arg3 15
  let period := bits arg3 47 32
  let x := b.queue q
  if log < 6 ∨ 16 < log ∨ base % max 4096 (64 * 2 ^ log) ≠ 0 ∨ period = 0 then endsWith stMalformed b
  else if !all ∧ ¬(x.live ∧ x.fid = fid ∧ x.ty < 2) then endsWith stAccess b
  else
    endsWith stOk (b.modFn fid fun f =>
      { f with trace := { f.trace with
          on := true, base := base, log := log, ringSet := true, queue := q, all := all,
          period := period, count := 0, slot := 0 } })

/-- TRACE_STOP. -/
def Block.traceStop (b : Block) (fid : Nat) : CmdEnds × Block :=
  endsWith stOk (b.modFn fid fun f => { f with trace := { f.trace with on := false } })

/-- STEP_START. -/
def Block.stepStart (b : Block) (fid period arg2 : Nat) : CmdEnds × Block :=
  let vector := bits arg2 7 0
  if period = 0 ∨ vectorCount fid ≤ vector then endsWith stMalformed b
  else
    endsWith stOk (b.modFn fid fun f =>
      { f with trace := { f.trace with
          stepOn := true, stepPeriod := period, stepCount := period, vector := vector,
          vectorEn := bit arg2 8 } })

/-- STEP_STOP. -/
def Block.stepStop (b : Block) (fid : Nat) : CmdEnds × Block :=
  endsWith stOk (b.modFn fid fun f => { f with trace := { f.trace with stepOn := false } })

/-! ## Every code, as CMD_CODE is written (R236) -/

/-- `PASID` of an argument, where `PASID_EN` at bit `en` is set. -/
def pasidArg (arg en lsb : Nat) : Option Nat := if bit arg en then some (bits arg (lsb + 19) lsb) else none

/-- The region that REG_REGISTER's arguments describe. -/
def regAsk (x : Fn) : RegAsk :=
  let a := x.arg 0
  { pd := bits a 19 0, pool := bit a 20, rights := bits a 27 24, relaxed := bit a 28,
    pasid := pasidArg a 29 32, start := x.arg 1, length := x.arg 2, dmaAddr := x.arg 3 }

/-- The queue that Q_CREATE's arguments describe. -/
def qAsk (x : Fn) : QAsk :=
  let a := x.arg 1
  let pb := bits (x.arg 2) 19 0
  let pc := bits (x.arg 2) 51 32
  { base := x.arg 0, ty := bits a 1 0, notify := bit a 2, log := bits a 8 4, prio := bits a 11 9,
    pasid := pasidArg a 15 16, pd := bits a 55 36, pollBase := if pb = 0 then 64 else pb,
    pollCeil := if pc = 0 then 16000 else pc, eq := bits (x.arg 3) 14 0, eqValid := bit (x.arg 3) 15,
    vector := bits (x.arg 3) 23 16, vectorEn := bit (x.arg 3) 24 }

def Block.cmdPdCreate (b : Block) (fid : Nat) : Block :=
  b.command fid 0x01 false [] fun b _ => b.pdCreate fid
def Block.cmdPdDestroy (b : Block) (fid : Nat) : Block :=
  b.command fid 0x02 false [field 19 0] fun b x => b.pdDestroy fid (x.arg 0)
def Block.cmdEpCreate (b : Block) (fid : Nat) : Block :=
  b.command fid 0x10 false [field 13 0 + field 15 15, field 19 0 + field 35 32] fun b x =>
    b.epCreate fid (if bit (x.arg 0) 15 then none else some (bits (x.arg 0) 13 0))
      (bits (x.arg 1) 19 0) (bits (x.arg 1) 35 32)
def Block.cmdEpDestroy (b : Block) (fid : Nat) : Block :=
  b.command fid 0x11 false [field 13 0] fun b x => b.epDestroy fid (x.arg 0)
def Block.cmdEpBind (b : Block) (fid : Nat) : Block :=
  b.command fid 0x12 false [field 13 0, field 31 0] fun b x => b.epBind fid (x.arg 0) (x.arg 1)
def Block.cmdCtxCreate (b : Block) (fid : Nat) : Block :=
  b.command fid 0x20 false [field 13 0, field 31 0, field 47 0 + field 63 63] fun b x =>
    b.ctxCreate fid (x.arg 0) (x.arg 1) (x.arg 2)
def Block.cmdCtxConnect (b : Block) (fid : Nat) : Block :=
  b.command fid 0x21 false [field 25 0, field 25 0, field 31 0] fun b x =>
    b.ctxConnect fid (x.arg 0) (x.arg 1) (BitVec.ofNat 32 (x.arg 2))
def Block.cmdCtxDestroy (b : Block) (fid : Nat) : Block :=
  b.command fid 0x22 false [field 25 0 + field 32 32] fun b x =>
    let c := bits (x.arg 0) 25 0
    let all := bit (x.arg 0) 32
    if all || b.ctxOwned fid c then b.ctxDestroyTry fid c all else endsWith stAccess b
def Block.cmdCtxQuery (b : Block) (fid : Nat) : Block :=
  b.command fid 0x23 false [field 25 0] fun b x => b.ctxQuery fid (x.arg 0)
def Block.cmdRegRegister (b : Block) (fid : Nat) : Block :=
  b.command fid 0x30 false
    [field 20 0 + field 29 24 + field 51 32, field 63 0, field 63 0, field 63 0] fun b x =>
    b.regRegister fid (regAsk x)
def Block.cmdRegDeregister (b : Block) (fid : Nat) : Block :=
  b.command fid 0x31 false [field 31 0] fun b x => b.regDeregister fid (x.arg 0)
def Block.cmdMctxCreate (b : Block) (fid : Nat) : Block :=
  b.command fid 0x40 false [field 15 0, field 19 0] fun b x => b.mctxCreate fid (x.arg 0) (x.arg 1)
def Block.cmdMctxDestroy (b : Block) (fid : Nat) : Block :=
  b.command fid 0x41 false [field 15 0] fun b x => b.mctxDestroy fid (x.arg 0)
def Block.cmdRecvCancel (b : Block) (fid : Nat) : Block :=
  b.command fid 0x42 false [field 14 0, field 15 0] fun b x => b.recvCancel fid (x.arg 0) (x.arg 1)
def Block.cmdQCreate (b : Block) (fid : Nat) : Block :=
  b.command fid 0x50 false
    [field 63 0, field 2 0 + field 11 4 + field 15 15 + field 55 16, field 19 0 + field 51 32,
      field 24 0] fun b x => b.qCreate fid (qAsk x)
def Block.cmdPantryInstall (b : Block) (fid : Nat) : Block :=
  b.command fid 0x60 true [field 0 0, field 63 0, field 24 0] fun b x =>
    b.pantryInstall fid (bit (x.arg 0) 0) (x.arg 1) (x.arg 2)
def Block.cmdPantryRemove (b : Block) (fid : Nat) : Block :=
  b.command fid 0x61 true [field 0 0] fun b x => b.pantryRemove fid (bit (x.arg 0) 0)
def Block.cmdDumpStart (b : Block) (fid : Nat) : Block :=
  b.command fid 0x70 false [field 3 0 + field 24 16, field 63 0, field 4 0 + field 63 32] fun b x =>
    b.dumpStart fid (x.arg 0) (x.arg 1) (x.arg 2)
def Block.cmdDumpStop (b : Block) (fid : Nat) : Block :=
  b.command fid 0x70 false [field 3 0] fun b _ => b.dumpStop fid
def Block.cmdCtrProgram (b : Block) (fid : Nat) : Block :=
  b.command fid 0x70 true [field 3 0, field 11 0 + field 25 16 + field 31 31, field 14 0] fun b x =>
    b.ctrProgram fid (x.arg 1) (x.arg 2)
def Block.cmdTraceStart (b : Block) (fid : Nat) : Block :=
  b.command fid 0x71 false [field 3 0, field 63 0, field 4 0, field 15 0 + field 47 32] fun b x =>
    b.traceStart fid (x.arg 1) (x.arg 2) (x.arg 3)
def Block.cmdTraceStop (b : Block) (fid : Nat) : Block :=
  b.command fid 0x71 false [field 3 0] fun b _ => b.traceStop fid
def Block.cmdStepStart (b : Block) (fid : Nat) : Block :=
  b.command fid 0x71 false [field 3 0, field 31 0, field 8 0] fun b x =>
    b.stepStart fid (x.arg 1) (x.arg 2)
def Block.cmdStepStop (b : Block) (fid : Nat) : Block :=
  b.command fid 0x71 false [field 3 0] fun b _ => b.stepStop fid

/-- `OP` of a DUMP_SET or TRACE_SET as its argument stands (R415). -/
def Block.setOp (b : Block) (fid : Nat) : Nat := bits ((b.fn fid).arg 0) 3 0

/-- A write of any code to `CMD_CODE` (R234, R236): an undefined code completes with BAD_OPCODE, an
undefined `OP` with MALFORMED. -/
def Block.cmdCode (b : Block) (fid code : Nat) : Block :=
  let op := b.setOp fid
  match code with
  | 0x01 => b.cmdPdCreate fid
  | 0x02 => b.cmdPdDestroy fid
  | 0x10 => b.cmdEpCreate fid
  | 0x11 => b.cmdEpDestroy fid
  | 0x12 => b.cmdEpBind fid
  | 0x20 => b.cmdCtxCreate fid
  | 0x21 => b.cmdCtxConnect fid
  | 0x22 => b.cmdCtxDestroy fid
  | 0x23 => b.cmdCtxQuery fid
  | 0x30 => b.cmdRegRegister fid
  | 0x31 => b.cmdRegDeregister fid
  | 0x40 => b.cmdMctxCreate fid
  | 0x41 => b.cmdMctxDestroy fid
  | 0x42 => b.cmdRecvCancel fid
  | 0x50 => b.cmdQCreate fid
  | 0x60 => b.cmdPantryInstall fid
  | 0x61 => b.cmdPantryRemove fid
  | 0x70 =>
    match op with
    | 1 => b.cmdDumpStart fid
    | 2 => b.cmdDumpStop fid
    | 3 => b.cmdCtrProgram fid
    | _ => b.command fid 0x70 false [field 3 0] fun b _ => endsWith stMalformed b
  | 0x71 =>
    match op with
    | 1 => b.cmdTraceStart fid
    | 2 => b.cmdTraceStop fid
    | 3 => b.cmdStepStart fid
    | 4 => b.cmdStepStop fid
    | _ => b.command fid 0x71 false [field 3 0] fun b _ => endsWith stMalformed b
  | c => b.command fid c false [field 63 0, field 63 0, field 63 0, field 63 0] fun b _ =>
      endsWith stBadOpcode b

/-! ## Meanings -/

/-- PD_CREATE (R148). -/
def execPdCreate (hl : HostId) (f : FnId) (s : State) : Host.Outcome State Fault Refusal :=
  runR (fun b => b.cmdPdCreate (fidOf hl f)) s
/-- PD_DESTROY (R149). -/
def execPdDestroy (hl : HostId) (f : FnId) (s : State) : Host.Outcome State Fault Refusal :=
  runR (fun b => b.cmdPdDestroy (fidOf hl f)) s
/-- EP_CREATE (R217). -/
def execEpCreate (hl : HostId) (f : FnId) (s : State) : Host.Outcome State Fault Refusal :=
  runR (fun b => b.cmdEpCreate (fidOf hl f)) s
/-- EP_DESTROY (R236). -/
def execEpDestroy (hl : HostId) (f : FnId) (s : State) : Host.Outcome State Fault Refusal :=
  runR (fun b => b.cmdEpDestroy (fidOf hl f)) s
/-- EP_MCAST_BIND (R155). -/
def execEpMcastBind (hl : HostId) (f : FnId) (s : State) : Host.Outcome State Fault Refusal :=
  runR (fun b => b.cmdEpBind (fidOf hl f)) s
/-- CTX_CREATE (R124). -/
def execCtxCreate (hl : HostId) (f : FnId) (s : State) : Host.Outcome State Fault Refusal :=
  runR (fun b => b.cmdCtxCreate (fidOf hl f)) s
/-- CTX_CONNECT (R124). -/
def execCtxConnect (hl : HostId) (f : FnId) (s : State) : Host.Outcome State Fault Refusal :=
  runR (fun b => b.cmdCtxConnect (fidOf hl f)) s
/-- CTX_DESTROY (R125). -/
def execCtxDestroy (hl : HostId) (f : FnId) (s : State) : Host.Outcome State Fault Refusal :=
  runR (fun b => b.cmdCtxDestroy (fidOf hl f)) s
/-- CTX_QUERY (R236). -/
def execCtxQuery (hl : HostId) (f : FnId) (s : State) : Host.Outcome State Fault Refusal :=
  runR (fun b => b.cmdCtxQuery (fidOf hl f)) s
/-- REG_REGISTER (R150, R151). -/
def execRegRegister (hl : HostId) (f : FnId) (s : State) : Host.Outcome State Fault Refusal :=
  runR (fun b => b.cmdRegRegister (fidOf hl f)) s
/-- REG_DEREGISTER (R153). -/
def execRegDeregister (hl : HostId) (f : FnId) (s : State) : Host.Outcome State Fault Refusal :=
  runR (fun b => b.cmdRegDeregister (fidOf hl f)) s
/-- MCTX_CREATE (R174). -/
def execMctxCreate (hl : HostId) (f : FnId) (s : State) : Host.Outcome State Fault Refusal :=
  runR (fun b => b.cmdMctxCreate (fidOf hl f)) s
/-- MCTX_DESTROY (R195). -/
def execMctxDestroy (hl : HostId) (f : FnId) (s : State) : Host.Outcome State Fault Refusal :=
  runR (fun b => b.cmdMctxDestroy (fidOf hl f)) s
/-- RECV_CANCEL (R194). -/
def execRecvCancel (hl : HostId) (f : FnId) (s : State) : Host.Outcome State Fault Refusal :=
  runR (fun b => b.cmdRecvCancel (fidOf hl f)) s
/-- Q_CREATE (R244). -/
def execQCreate (hl : HostId) (f : FnId) (s : State) : Host.Outcome State Fault Refusal :=
  runR (fun b => b.cmdQCreate (fidOf hl f)) s
/-- PANTRY_INSTALL (R128, R154). -/
def execPantryInstall (hl : HostId) (f : FnId) (s : State) : Host.Outcome State Fault Refusal :=
  runR (fun b => b.cmdPantryInstall (fidOf hl f)) s
/-- PANTRY_REMOVE (R128, R211). -/
def execPantryRemove (hl : HostId) (f : FnId) (s : State) : Host.Outcome State Fault Refusal :=
  runR (fun b => b.cmdPantryRemove (fidOf hl f)) s
/-- DUMP_START (R415): the argument holds its `OP`. -/
def execDumpStart (hl : HostId) (f : FnId) (s : State) : Host.Outcome State Fault Refusal :=
  runR (fun b => if b.setOp (fidOf hl f) = 1 then b.cmdDumpStart (fidOf hl f) else b) s
/-- DUMP_STOP (R415). -/
def execDumpStop (hl : HostId) (f : FnId) (s : State) : Host.Outcome State Fault Refusal :=
  runR (fun b => if b.setOp (fidOf hl f) = 2 then b.cmdDumpStop (fidOf hl f) else b) s
/-- CTR_PROGRAM (R413, R415). -/
def execCtrProgram (hl : HostId) (f : FnId) (s : State) : Host.Outcome State Fault Refusal :=
  runR (fun b => if b.setOp (fidOf hl f) = 3 then b.cmdCtrProgram (fidOf hl f) else b) s
/-- TRACE_START (R415, R418). -/
def execTraceStart (hl : HostId) (f : FnId) (s : State) : Host.Outcome State Fault Refusal :=
  runR (fun b => if b.setOp (fidOf hl f) = 1 then b.cmdTraceStart (fidOf hl f) else b) s
/-- TRACE_STOP (R415). -/
def execTraceStop (hl : HostId) (f : FnId) (s : State) : Host.Outcome State Fault Refusal :=
  runR (fun b => if b.setOp (fidOf hl f) = 2 then b.cmdTraceStop (fidOf hl f) else b) s
/-- STEP_START (R415, R419). -/
def execStepStart (hl : HostId) (f : FnId) (s : State) : Host.Outcome State Fault Refusal :=
  runR (fun b => if b.setOp (fidOf hl f) = 3 then b.cmdStepStart (fidOf hl f) else b) s
/-- STEP_STOP (R415). -/
def execStepStop (hl : HostId) (f : FnId) (s : State) : Host.Outcome State Fault Refusal :=
  runR (fun b => if b.setOp (fidOf hl f) = 4 then b.cmdStepStop (fidOf hl f) else b) s

/-- COMMAND_COMPLETION (R153, R234): a command that waited ends once what it waits for is over. -/
def execCommandCompletion (hl : HostId) (f : FnId) (s : State) : Host.Outcome State Fault Refusal :=
  runR (fun b =>
    let fid := fidOf hl f
    if !b.live then b
    else
      match (b.fn fid).wait with
      | none => b
      | some w =>
        let r := match w with
          | .ctxDestroy c all => b.ctxDestroyTry fid c all
          | .regDeregister key => b.deregTry fid key
          | .mcastBind e key => b.epBind fid e key
          | .pantryRemove region => b.pantryRemoveTry hl.val region
        match r with
        | (.done st r0 r1, b) => b.cmdDone fid st r0 r1
        | (.waits _, b) => b) s

end Sys2Proof.Machine
end

