-- ==== Sys2Proof/Machine/Counters.lean ====
section
/-! DEFINITION. Bandwidth windows (R411) and counter dumps (R414, R416, R417). -/

namespace Sys2Proof.Machine

/-! ## Bandwidth windows (R411) -/

/-- End of the window in progress, in ns of fabric time. -/
def Block.windowEnd (b : Block) : Nat := if b.bwEnd = 0 then b.bwWindow * 1000 else b.bwEnd

/-- Length in ns of the windows that the window in progress is aligned to: a new `BW_WINDOW` counts
from its strobe on. -/
def Block.windowUnit (b : Block) : Nat :=
  (match b.bwNext with
    | some v => v
    | none => b.bwWindow) * 1000

/-- Fabric time has left the window in progress: it has reached its end, or was stepped into
another. -/
def Block.windowOver (b : Block) : Bool :=
  decide (b.windowEnd ≤ b.ftime) ||
    (b.bwStepped && b.ftime / b.windowUnit != (b.windowEnd - 1) / b.windowUnit)

/-- Port `p` writes its window into `BW_TX` and `BW_RX`, each replaced whole. -/
def Block.windowPort (b : Block) (p : Nat) : Block :=
  let x := b.port p
  ({ b with counters := Tbl.set 0 (Tbl.set 0 b.counters (portCtr p 14) (min x.winTx counterMax))
                          (portCtr p 15) (min x.winRx counterMax) } : Block).setPort p
    { x with winTx := 0, winRx := 0 }

/-- A window ends. -/
def Block.endWindow (b : Block) : Block :=
  let b := (List.range 16).foldl (fun b p => b.windowPort p) b
  let b := if b.bwStepped then b.count 839 1 else b
  let u := b.windowUnit
  { b with bwWindow := u / 1000, bwNext := none, bwStepped := false, bwEnd := (b.ftime / u + 1) * u }

/-- BW_WINDOW_END (R411). Counters keep their values in quench (R421). -/
def execBwWindowEnd (s : State) : Host.Outcome State Fault Refusal :=
  run (fun b => if b.live && b.windowOver then b.endWindow else b) s

/-! ## Counter dumps (R416) -/

/-- Function `fid` sees counter `c` (R414): a PF every counter of its share, a VF those whose scope is
itself or one of its queues. -/
def Block.sees (b : Block) (fid c : Nat) : Bool :=
  let r := b.ctrRange (fidLink fid)
  let e := Tbl.get (0, 0, 0) b.ctrEvent c
  decide (r.1 ≤ c) && decide (c < r.1 + r.2) &&
    (fidFn fid == 0 || (e.2.1 == 1 && e.2.2 == fidFn fid) ||
      (e.2.1 == 2 && (b.queue e.2.2).live && (b.queue e.2.2).fid == fid))

/-- The aligned runs of 32 counters in which the function sees one, by their first counter. -/
def Block.runsOf (b : Block) (fid : Nat) : List Nat :=
  ((List.range 128).map (· * 32)).filter fun f => (List.range 32).any fun j => b.sees fid (f + j)

/-- A record of 320 bytes (R416), but for `RSEQ`. -/
def Block.dumpBody (b : Block) (fid pass time first : Nat) : Bytes :=
  let part := !((List.range 32).all fun j => b.sees fid (first + j))
  toLe 4 pass ++ toLe 8 time ++ toLe 2 first ++
    toLe 1 (b2n (!b.time.synced) + b2n part * 2) ++ zeros 45 ++
    (List.range 32).flatMap fun j => toLe 8 (if b.sees fid (first + j) then b.counter (first + j) else 0)

/-- The five aligned 64-byte writes of a record; a write that fails ends them. -/
def Block.dumpWrites (b : Block) (fid addr : Nat) (rec_ : Bytes) : Bool × Block :=
  (List.range 5).foldl (fun a i =>
    if a.1 then a.2.hostWrite fid none false (addr + 64 * i) (slice rec_ (64 * i) 64) else a) (true, b)

/-- One record into the ring (R417): one that meets a poisoned word of the staging is dropped, and after a
failed write the dump has stopped. A pass is written as it is taken, so that it never fills the staging
(log 149). -/
def Block.dumpRecord (b : Block) (fid : Nat) (body : Bytes) : Block :=
  let d := (b.fn fid).dump
  if !d.on then b
  else if 0 < b.stagingBad then
    let b := { b with stagingBad := b.stagingBad - 1 }
    (b.modFn fid fun f => { f with dump := { d with rseq := nextRseq d.rseq } }).count 841 1
  else
    let (ok, b) := b.dumpWrites fid (d.base + 320 * (d.slot % 2 ^ d.log)) (toLe 4 d.rseq ++ body)
    let b := b.modFn fid fun f =>
      { f with dump := { d with on := ok, rseq := nextRseq d.rseq, slot := d.slot + 1 } }
    if ok then b.count 840 1
    else
      let (h, b) := (b.count 841 1).newHome fun _ => 0
      b.raiseHostDma h fid

/-- The multiple of `PERIOD` at which the snapshot falls due, where one does. -/
def Block.dumpDue (b : Block) (fid : Nat) : Option Nat :=
  let d := (b.fn fid).dump
  let u := d.period * 1000
  if d.on ∧ d.last / u < b.ftime / u then some (b.ftime / u * u) else none

/-- Passes that fell due before the one at `time` and were not taken: the pass before was unfinished
(R417). -/
def Dump.missed (d : Dump) (time : Nat) : Nat := time / (d.period * 1000) - d.last / (d.period * 1000) - 1

/-- One pass (R416): every record carries the snapshot taken before the first is written. Passes skipped
take a number each, and are counted (R417). -/
def Block.dumpPass (b : Block) (fid time : Nat) : Block :=
  let d := (b.fn fid).dump
  let skipped := d.missed time
  let b := b.count 841 skipped
  let d := { d with pass := (d.pass + skipped) % 2 ^ 32 }
  let bodies := (b.runsOf fid).map fun f => b.dumpBody fid d.pass time f
  let b := b.modFn fid fun f => { f with dump := { d with last := time, pass := (d.pass + 1) % 2 ^ 32 } }
  let b := bodies.foldl (fun b r => b.dumpRecord fid r) b
  if d.vectorEn && (b.fn fid).dump.on then b.msix fid d.vector else b

/-- DUMP_PASS (R416). -/
def execDumpPass (hl : HostId) (f : FnId) (s : State) : Host.Outcome State Fault Refusal :=
  runR (fun b =>
    match b.dumpDue (fidOf hl f) with
    | some t => if b.live && b.fnRuns (fidOf hl f) then b.dumpPass (fidOf hl f) t else b
    | none => b) s

end Sys2Proof.Machine
end

