-- ==== Sys2Proof/Machine/Transport.lean ====
section
/-! DEFINITION. The transport commands: packets that reach a connection, its timers, pantry fills and
the completions of host requests (R122 to R146, R154 to R162, R175 to R193, R513 to R516). -/

namespace Sys2Proof.Machine

/-- Packet `i` of those delivered, where it is of this format and kind, is handled by `f`. -/
def Block.onArrival (b : Block) (i format kind : Nat) (f : Block → Arrival → Block) : Block :=
  if !b.live then b
  else
    match b.takeArrival i format kind with
    | some (a, b) => f b a
    | none => b

/-! ## Requests -/

/-- A new SEND packet goes to the sieve (R175, R180 to R186). -/
def Block.sendFresh (b : Block) (a : Arrival) (c : Nat) (p : Pkt) : Block :=
  match b.sieveTake c p with
  | (.wait w, b) => b.stashNew a c w
  | (.accept, b) => b.accept c p.psn 1 p.ackReq
  | (.rnr, b) => b.rnrPkt c p
  | (.refuse st, b) => b.refusePkt c p 1 st

/-- SEND_EAGER (R135, R175, R180 to R186). -/
def execSendEager (i : Nat) (s : State) : Host.Outcome State Fault Refusal :=
  runR (fun b => b.onArrival i 1 1 fun b a =>
    b.reqArrive a (fun b c p => b.sendFresh a c p) Block.dupDrop) s

/-- SEND_RTS (R135, R175, R180 to R191). -/
def execSendRts (i : Nat) (s : State) : Host.Outcome State Fault Refusal :=
  runR (fun b => b.onArrival i 1 2 fun b a =>
    b.reqArrive a (fun b c p => b.sendFresh a c p) Block.dupDrop) s

/-- PUT (R156, R159, R166). -/
def execPutPacket (i : Nat) (s : State) : Host.Outcome State Fault Refusal :=
  runR (fun b => b.onArrival i 1 3 fun b a =>
    b.reqArrive a (fun b c p => b.putFresh a c p) Block.dupDrop) s

/-- GET_REQ (R136, R156, R159). -/
def execGetReq (i : Nat) (s : State) : Host.Outcome State Fault Refusal :=
  runR (fun b => b.onArrival i 1 4 fun b a =>
    b.reqArrive a (fun b c p => b.getRun a true c p) (fun b c p => b.getRun a false c p)) s

/-- ATOMIC (R136, R138, R156, R160 to R162). -/
def execAtomicPacket (i : Nat) (s : State) : Host.Outcome State Fault Refusal :=
  runR (fun b => b.onArrival i 1 6 fun b a =>
    b.reqArrive a (fun b c p => b.atomicFresh a c p) Block.atomicDup) s

/-- RDV_FIN (R192). -/
def execRdvFin (i : Nat) (s : State) : Host.Outcome State Fault Refusal :=
  runR (fun b => b.onArrival i 0 3 fun b a => b.reqArrive a Block.finFresh Block.dupDrop) s

/-! ## Answers -/

/-- GET_RESP (R140, R145, R159). -/
def execGetResp (i : Nat) (s : State) : Host.Outcome State Fault Refusal :=
  runR (fun b => b.onArrival i 1 5 fun b a => b.rspArrive a fun b c _ =>
    b.takeGetResp c a) s

/-- ATOMIC_RESP (R140, R145). -/
def execAtomicResp (i : Nat) (s : State) : Host.Outcome State Fault Refusal :=
  runR (fun b => b.onArrival i 1 7 fun b a => b.rspArrive a Block.takeAtomicResp) s

/-- ACK (R101, R140). -/
def execAck (i : Nat) (s : State) : Host.Outcome State Fault Refusal :=
  runR (fun b => b.onArrival i 0 1 fun b a =>
    b.rspArrive a fun b c p =>
      (b.takeEcho c (p.at_ 48 1) (p.at_ 49 1)).takeAcks c p.psn (p.at_ 56 8)) s

/-- NAK (R101, R141). -/
def execNak (i : Nat) (s : State) : Host.Outcome State Fault Refusal :=
  runR (fun b => b.onArrival i 0 2 fun b a =>
    b.rspArrive a fun b c p => (b.takeEcho c (p.at_ 48 1) (p.at_ 49 1)).takeNak c p) s

/-- UNROUTABLE_REPORT (R45, R112). One for a spilled context waits for its fill (R131); one that matches
no unanswered PSN is counted with the late answers (log 135). -/
def execUnroutableReport (i : Nat) (s : State) : Host.Outcome State Fault Refusal :=
  runR (fun b => b.onArrival i 0 4 fun b a =>
    match b.reportedCtx a.pkt with
    | some c =>
      match b.touchCtx c with
      | (true, b) => b.takeReport c a.pkt
      | (false, b) => b.stash a (.ctx c)
    | none => b.count 520 1) s

/-! ## Timers -/

/-- ACK_DELAY (R139): the first acceptance not yet acknowledged is old enough. It needs no fill of a spilled
context (log 157). -/
def execAckDelay (ctx : Nat) (s : State) : Host.Outcome State Fault Refusal :=
  runR (fun b =>
    let x := b.ctx ctx
    match x.ackSince with
    | some t =>
      if b.live && x.st == .active && decide (t + b.obj (0x2030 + ctxLink ctx) 2 ≤ b.now) then
        b.sendAck ctx
      else b
    | none => b) s

/-- The retransmission timer of a context has run out (R142). -/
def Ctx.timerDue (x : Ctx) (now : Nat) : Bool :=
  match x.timerAt with
  | some t => decide (t + x.rto * 1000 * 2 ^ x.tries ≤ now)
  | none => false

/-- The timer expires (R142, R143): everything unanswered is sent again, or the operation with the
oldest unanswered PSN ends and the context enters ERROR. -/
def Block.timerExpires (b : Block) (c : Nat) : Block :=
  let x := b.ctx c
  match x.unans with
  | [] => b
  | u :: _ =>
    if x.tries < x.retryLimit then
      b.tryAgain c fun b =>
        (b.modCtx c fun x => (x.markExpiry b.now).setTimer b.now true).resendFrom c u.psn
    else
      let st := if u.heard then stRetryExceeded else stTimeout
      (b.endOp u.op st).enterError c st

/-- RETRANSMISSION_TIMEOUT (R130, R142, R143). A spilled context is filled first. -/
def execRetransmissionTimeout (ctx : Nat) (s : State) : Host.Outcome State Fault Refusal :=
  runR (fun b =>
    let x := b.ctx ctx
    if b.live && x.st == .active && x.timerDue b.now then
      match b.touchCtx ctx with
      | (true, b) => b.timerExpires ctx
      | (false, b) => b
    else b) s

/-- RNR_WAIT (R141): a PSN has waited out its RNR and is queued again, which needs no fill of a spilled
context (log 157). -/
def execRnrWait (ctx : Nat) (psn : BitVec 32) (s : State) : Host.Outcome State Fault Refusal :=
  runR (fun b =>
    let x := b.ctx ctx
    match x.unans.find? fun u => u.psn == psn with
    | none => b
    | some u =>
      match u.rnrUntil with
      | none => b
      | some t =>
        if b.live && x.st == .active && decide (t ≤ b.now) then
          let y : Ctx :=
            { x with unans := x.unans.map fun v =>
                if v.psn = psn then { v with rnrUntil := none } else v }
          (b.setCtx ctx (y.setTimer b.now false)).resend { u with rnrUntil := none }
        else b) s

/-- ATOMIC_HOLD (R138): an atomic cache entry is freed. -/
def execAtomicHold (ctx : Nat) (psn : BitVec 32) (s : State) : Host.Outcome State Fault Refusal :=
  run (fun b => { b with atomics := b.atomics.filter fun a =>
    !(a.ctx == ctx && a.psn == psn && decide (a.at_ + a.hold ≤ b.now)) }) s

/-- RDV_WAIT (R190): a rendezvous SEND has waited too long for its FIN. -/
def execRdvWait (ctx : Nat) (msn : BitVec 32) (s : State) : Host.Outcome State Fault Refusal :=
  runR (fun b =>
    let due (o : Op) : Bool :=
      o.ctx == ctx && o.kind == .rts && o.started && o.msn == msn && !o.closed &&
        (match o.rdvUntil with
          | some t => decide (t ≤ b.now)
          | none => false)
    match b.ops.find? fun o => due o.2 with
    | some o => if b.live then b.endOp o.1 stTimeout else b
    | none => b) s

/-! ## Pantry fills -/

/-- A fill of a context has ended (R129, R130, R131, R215). No rule gives the status of a failed check,
so it is a free value (log 29). -/
def Block.ctxFilled (b : Block) (c : Nat) (r : FillResult) : Block :=
  let b := (b.ctxRoom (ctxLink c)).modCtx c fun x =>
    { x with spilled := false, filling := false, used := b.now }
  let b := b.count 529 1
  let b := match r with
    | .good => b
    | .badCheck =>
      let (t, b) := b.someTp (b.ctx c).home
      let (st, b) := b.choose 256
      (b.raise t.1 8 t.2 c).enterError c st
    | .dmaError => b.enterError c stHostDmaError
  b.unstash fun a => a.awaits == .ctx c

/-- A region whose fill failed is unusable, and the owning PF is told once (R154). -/
def Block.regionSpoiled (b : Block) (k : Nat) (check : Bool) : Block :=
  let (home, b) := b.newHome fun _ => 0
  let (t, b) := b.someTp home
  let b := b.modReg k fun r => { r with unusable := true }
  let told := check && !b.blkRetired t.1 && b.reactOf t.1 8 % 4 != 0
  let b := if check then b.raise t.1 8 t.2 (k % 2 ^ 24) else b
  if told then b else b.event (fidOf (k / 2 ^ 24) 0) 6 (toLe 4 (srcCode t.1 8 t.2))

/-- A fill of a region entry has ended (R154). -/
def Block.regFilled (b : Block) (k : Nat) (r : FillResult) : Block :=
  let b := (b.regRoom (k / 2 ^ 24)).modReg k fun x =>
    { x with spilled := false, filling := false, used := b.now }
  let b := b.count 531 1
  let b := match r with
    | .good => b
    | .badCheck => b.regionSpoiled k true
    | .dmaError => b.regionSpoiled k false
  b.unstash fun a => a.awaits == .region k

/-- The read of a pantry entry is back: it fills the entry that still waits for it. -/
def Block.pantryFilled (b : Block) (region : Bool) (key : Nat) (result : FillResult) : Block :=
  if region then
    let r := b.reg key
    if r.live && r.spilled && r.filling then b.regFilled key result else b
  else
    let x := b.ctx key
    if x.st != .free && x.spilled && x.filling then b.ctxFilled key result else b

/-- PANTRY_FILL_DONE (R130, R154, R202): the oldest read in flight of the entry ends. A read of a fill that
was abandoned (R131) changes nothing but itself: it is older than that of a fill begun since. -/
def execPantryFillDone (region : Bool) (key : Nat) (result : FillResult) (s : State) :
    Host.Outcome State Fault Refusal :=
  runR (fun b =>
    match b.dma.filter fun d => d.purpose == .fill region key with
    | [] => b
    | d :: later =>
      if !b.onLink d then b
      else
        let b := { b with dma := b.dma.filter fun e => !(e.tag == d.tag) }
        let b := if b.live && later.isEmpty then b.pantryFilled region key result else b
        b.serveInv d.hl) s

/-! ## Completions of host requests -/

/-- A packet in hand has its outcome: `f` records it where the context is still ACTIVE (R514). -/
def Block.handDone (b : Block) (c : Nat) (p : Pkt) (k : Nat) (f : Block → Block) : Block :=
  if (b.ctx c).st = .active then (f b).unhand c p.psn k else b

/-- Payload for an operation has been read, or could not be (R142, R158, R513). -/
def Block.payloadRead (b : Block) (n off len : Nat) (data : Option Bytes) : Block :=
  match data with
  | some bs => b.modOp n fun o => { o.used off with staged := erase1 off o.staged ++ [(off, slice bs 0 len)] }
  | none => b.failOp n stHostDmaError

/-- Another request of the same access (R162). -/
def Block.dmaAgain (b : Block) (d : DmaReq) (kind : DmaKind) (o0 o1 : Nat) (purpose : DmaPurpose) :
    Bool × Block :=
  if b.canIssue d.fid d.pasid d.addr d.len then
    (true, b.dmaIssue d.fid d.pasid kind d.addr d.len o0 o1 d.key purpose)
  else (false, b)

/-- The read of a CAS loop is back: one attempt is made (R162). -/
def Block.casAttempt (b : Block) (d : DmaReq) (c : Nat) (p : Pkt) (n : Nat) (data : Option Bytes) :
    Block :=
  let fail (b : Block) : Block := b.handDone c p 1 fun b => b.refusePkt c p 1 stHostDmaError
  match data with
  | none => fail b
  | some bs =>
    let w := atomicWidth p
    let old := leNat (slice bs 0 (w / 8))
    let new := atomicNew (atomicOp p) w (bit (p.at_ 76 4) 5) old (p.at_ 80 8) (p.at_ 88 8)
    match b.dmaAgain d .cas old new (.casTry c p n old) with
    | (true, b) => b.count 536 1
    | (false, b) => fail b

/-- A CAS of the loop is back (R162): it succeeded, another attempt follows, or the packet is refused
with an RNR. -/
def Block.casResult (b : Block) (d : DmaReq) (c : Nat) (p : Pkt) (n expected : Nat)
    (data : Option Bytes) : Block :=
  let fail (b : Block) : Block := b.handDone c p 1 fun b => b.refusePkt c p 1 stHostDmaError
  match data with
  | none => fail b
  | some bs =>
    let old := leNat (slice bs 0 (atomicWidth p / 8))
    if old = expected then b.handDone c p 1 fun b => b.atomicDone c p old
    else if b.obj (0x2030 + ctxLink c) 4 ≤ n + 1 then b.handDone c p 1 fun b => b.rnrPkt c p
    else
      match b.dmaAgain d .read 0 0 (.casRead c p (n + 1)) with
      | (true, b) => b
      | (false, b) => fail b

/-- The read of a COPY_IN step is back (R274, R293). -/
def Block.copyInRead (b : Block) (m k : Nat) (seq : BitVec 32) (len : Nat) (data : Option Bytes) :
    Block :=
  match (b.mould m).armed with
  | none => b
  | some q =>
    if q.seq ≠ seq ∨ !q.running.any (fun r => r.step == k && !r.done) then b
    else
      match data with
      | some bs => (b.slotWrite m ((b.mould m).step k).addrA (slice bs 0 len)).markDone m k
      | none => b.breakHere m q 9 stHostDmaError

/-- A request in flight has ended with `data`, or has failed (R158). -/
def Block.dmaEnds (b : Block) (d : DmaReq) (data : Option Bytes) : Block :=
  match d.purpose with
  | .payload n off => b.payloadRead n off d.len data
  | .getRead c p _ len fresh =>
    let result := match data with
      | some bs => (stOk, slice bs 0 len)
      | none => (stHostDmaError, [])
    if fresh then b.handDone c p (reqPsns p) fun b => b.getDone c p true result
    else if (b.ctx c).st = .active then b.getDone c p false result
    else b
  | .hostAtomic c p =>
    b.handDone c p 1 fun b =>
      match data with
      | some bs => b.atomicDone c p (leNat (slice bs 0 (atomicWidth p / 8)))
      | none => b.refusePkt c p 1 stHostDmaError
  | .casRead c p n => if (b.ctx c).st = .active then b.casAttempt d c p n data else b
  | .casTry c p n expected =>
    if (b.ctx c).st = .active then b.casResult d c p n expected data else b
  | .mouldCopyIn m k seq => b.copyInRead m k seq d.len data
  | .fill _ _ => b

/-- A request whose end PANTRY_FILL_DONE is. -/
def DmaPurpose.fills : DmaPurpose → Bool
  | .fill _ _ => true
  | _ => false

/-- HOST_DMA_COMPLETION (R158, R202): a read or AtomicOp in flight ends. -/
def execHostDmaCompletion (tag : Nat) (result : DmaResult) (s : State) :
    Host.Outcome State Fault Refusal :=
  runR (fun b =>
    match b.dma.find? fun d => d.tag == tag && !d.purpose.fills with
    | none => b
    | some d =>
      if !b.onLink d then b
      else
        let b := { b with dma := b.dma.filter fun e => !(e.tag == tag) }
        let b := match result with
          | .timeout => (b.raise (blkHl d.hl) 9 noUnit tag).aerSet d.fid 14
          | _ => b
        let b := if !b.live then b
          else
            b.dmaEnds d (match result with
              | .data bs => some bs
              | _ => none)
        b.serveInv d.hl) s

/-- OVERFLOW_COPY_DONE (R185, R188, R516): the copy out of a message's overflow piece ends, once the
place of its receive's notification is reserved and its regions and translations are there. -/
def execOverflowCopyDone (ctx : Nat) (msn : BitVec 32) (ok : Bool) (s : State) :
    Host.Outcome State Fault Refusal :=
  runR (fun b =>
    match b.inflight.find? fun e => e.2.ctx == ctx && e.2.msn == msn && e.2.copying with
    | none => b
    | some (k, e) =>
      let notifies := match e.recv with
        | some r => (b.queue r.q).notify
        | none => false
      if !b.live || (notifies && !e.placed) then b
      else
        match b.copyAwaits e with
        | (true, b) => b
        | (false, b) =>
          match (if ok then b.overflowCopy e else (false, b)) with
          | (true, b) =>
            let n := (e.copyRuns.map (·.2)).sum
            let b := (b.count 776 n).countEvent 10 (b.mctx e.mctx).fid none n
            let b := b.releasePiece e
            (b.modMsg k fun e => { e with copying := false, piece := none }).eagerDone k
          | (false, b) => b.endRecv k stHostDmaError (min e.recvLen e.got)) s

end Sys2Proof.Machine
end

