-- ==== Sys2Proof/Machine/Faults.lean ====
section
/-! DEFINITION. Raised and forced fault sources (R230, R393 to R405), SRAM scrubbing and sparing
(R398, R399), and the retirement of units and regions (R401, R402). -/

namespace Sys2Proof.Machine

/-! ## What a poisoned word or a lost bank takes (R399)

Which carve use and which entry a word belongs to is not given, so both are free choices. -/

/-- One of the things in a list, or none. -/
def Block.pick (b : Block) (l : List α) : Option α × Block :=
  let (i, b) := b.choose l.length
  (l[i]?, b)

/-- Apply `f` to one of the things in a list, if there is one. -/
def Block.pickDo (b : Block) (l : List α) (f : Block → α → Block) : Block :=
  match b.pick l with
  | (some x, b) => f b x
  | (none, b) => b

/-- A region that becomes unusable (R154, R399). -/
def Block.spoilRegion (b : Block) (k : Nat) : Block := b.regionSpoiled k false

/-- A poisoned context acts as on a pantry check failure (R125); no rule gives its status (log 29). -/
def Block.spoilCtx (b : Block) (c : Nat) : Block :=
  let (st, b) := b.choose 256
  b.enterError c st

/-- A packet that waits for an output port is dropped and counted (log 41). -/
def Block.dropQueued (b : Block) (k : Nat) : Block :=
  let (i, b) := b.choose (queueOf b.outQ k).length
  match (queueOf b.outQ k)[i]? with
  | none => b
  | some x =>
    let b := (b.dropAt k i).count (portCtr (k / 16) 12) 1
    if x.pkt.priv then { b with lostPriv := b.lostPriv ++ [x.pkt] } else b

/-- The packet that is read next from an input buffer is dropped and counted (log 41). -/
def Block.dropInput (b : Block) (k : Nat) : Block :=
  match queueOf b.rxQ k with
  | [] => b
  | p :: t =>
    let (src, b) := ({ b with rxQ := Tbl.set [] b.rxQ k t } : Block).takePlace (k / 16) (k % 16)
    let b := (b.leave src p.size).count (portCtr (k / 16) 12) 1
    if p.priv then { b with lostPriv := b.lostPriv ++ [p] } else b

/-- A packet in a router buffer whose word is poisoned (R399). -/
def Block.dropBuffered (b : Block) : Block :=
  b.pickDo ((Tbl.keys b.outQ).map (fun k => (true, k)) ++ (Tbl.keys b.rxQ).map fun k => (false, k))
    fun b x => if x.1 then b.dropQueued x.2 else b.dropInput x.2

/-- A posted receive or a message is lost (R399). -/
def Block.spoilMatch (b : Block) (use : Nat) : Block :=
  if use = 6 then
    let l := b.mctxs.flatMap fun e => e.2.posted.map fun r => (e.1, r)
    b.pickDo l fun b x =>
      let m := b.mctx x.1
      (b.setMctx x.1 { m with posted := m.posted.filter fun r => !(r == x.2) }).flushRecv x.2
  else
    let l := b.inflight.filter fun e => use = 12 ∨ e.2.st = .unexpected
    b.pickDo l fun b e => b.flushMsg e.1

/-- One of the things in a list, or none of them though there are some. -/
def Block.pickMaybe (b : Block) (l : List α) : Option α × Block :=
  let (i, b) := b.choose (l.length + 1)
  (l[i]?, b)

/-- Which of the entries with these keys a poisoned word holds part of, if any; `f` is what becomes of it. -/
def Block.pickKey (b : Block) (l : List Nat) (f : Block → Nat → Block) : Option Nat × Block :=
  match b.pickMaybe l with
  | (some k, b) => (some k, f b k)
  | (none, b) => (none, b)

/-- Sprue entry, bitmap word or segment that a poisoned word holds (R399). -/
def Block.spoilTable (b : Block) : Option Nat × Block :=
  let (k, b) := b.choose 3
  match k with
  | 0 =>
    let (e, b) := b.pickKey (Tbl.keys b.sprue) fun b t => { b with sprue := Tbl.set 0 b.sprue t 0 }
    (e.map (tableEntry 0), b)
  | 1 =>
    let (e, b) := b.pickKey (Tbl.keys b.segments) fun b s => { b with segments := Tbl.set [] b.segments s [] }
    (e.map (tableEntry 1), b)
  | _ =>
    let (w, b) := b.choose (16 * 4096)
    (some (tableEntry 2 w),
     { b with fences := (List.range 64).foldl (fun t i =>
        Tbl.set (b2n (w / 4096 == 0)) t (w / 4096 * 262144 + w % 4096 * 64 + i) 0) b.fences })

/-- A word of the mould slots is poisoned (R399): one of a mould's slot space, which each step that reads it waits
for until it is written again; one of a held packet or of a contribution to a gather record, which is lost. The
pours that need it end by their watchdogs. Which it is, if any, is open. -/
def Block.spoilSlots (b : Block) : Block :=
  let (k, b) := b.choose 3
  let r : Option Nat × Block := match k with
  | 0 => b.pickKey ((b.moulds.filter fun e => e.2.pages != 0).map (·.1)) fun b i =>
      let (w, b) := b.choose ((b.mould i).pages * 512)
      { b with badSlots := (i * 2 ^ 22 + w) :: b.badSlots }
  | 1 => b.pickKey ((b.moulds.filter fun e => e.2.held != []).map (·.1)) fun b i =>
      let (n, b) := b.choose (b.mould i).held.length
      b.modMould i fun m => { m with held := m.held.eraseIdx n }
  | _ => b.pickKey (List.range b.gathers.length) fun b i =>
      let (n, b) := b.choose ((b.gathers[i]?.map (·.parts.length)).getD 0)
      { b with gathers := b.gathers.mapIdx fun j g => if j = i then { g with parts := g.parts.eraseIdx n } else g }
  r.2

/-- A word of the mould store is poisoned: no pour of the mould gets past the step it holds, until the mould
is loaded again (R399). -/
def Block.spoilStep (b : Block) : Option Nat × Block :=
  b.pickKey ((b.moulds.filter fun e => e.2.st == .valid).map (·.1)) fun b i =>
    let (k, b) := b.choose (b.mould i).stepCount
    b.modMould i fun m => { m with badSteps := k :: m.badSteps }

/-- A payload unit of host staging is poisoned: the packet that takes it is dropped, and retransmitted
(R399). -/
def Block.spoilStaging (b : Block) : Block :=
  b.pickDo (b.ops.flatMap fun e => e.2.staged.map fun s => (e.1, s.1)) fun b x =>
    b.modOp x.1 fun o => { o with spoilt := x.2 :: o.spoilt }

/-- A poisoned word of carve use `use` acts (R389, R399); the entry that it holds part of, where that stays
bad until it is written again. -/
def Block.poisonUse (b : Block) (use code : Nat) : Option Nat × Block :=
  match use with
  | 1 => b.pickKey (Tbl.keys b.paths) fun b n => { b with paths := Tbl.set [] b.paths n [] }
  | 2 => (none, b.dropBuffered)
  | 3 => (none, b.spoilSlots)
  | 4 => b.pickKey (Tbl.keys (b.ctxs.filter fun e => e.2.cached && (e.2.st == .setup || e.2.st == .active)))
      fun b c => b.spoilCtx c
  | 5 => (none, b.spoilStaging)
  | 6 => (none, b.spoilMatch 6)
  | 7 => (none, b.spoilMatch 7)
  | 8 => b.pickKey (Tbl.keys (b.regs.filter fun e => e.2.cached)) fun b k => b.spoilRegion k
  | 9 => (none, b.pickDo ((List.range 16).filter fun p => (b.port p).carries) fun b p => b.failLink p)
  | 10 => (none, b.pickDo (Tbl.keys (b.queues.filter fun e => e.2.parked != [])) fun b q =>
      (b.modQueue q fun e => { e with parked := e.parked.drop 1 }).count 837 1)
  | 11 => b.pickKey (Tbl.keys (b.regs.filter fun e => e.2.live && e.2.pool)) fun b k => b.spoilRegion k
  | 12 => (none, b.spoilMatch 12)
  | 13 => b.spoilStep
  | 14 => (none, b.emit (.spTrap code))
  | 15 => (none, b.pickDo b.atomics fun b a => { b with atomics := b.atomics.filter fun x => !(x == a) })
  | 16 => (none, { b with stagingBad := b.stagingBad + 1 })
  | 17 => b.spoilTable
  | _ => (none, b)

/-- The carve use a bank belongs to; the free pool holds nothing. -/
def Block.someUse (b : Block) : Nat × Block :=
  let (u, b) := b.choose 17
  (u + 1, b)

/-- As many of the listed things as a lost bank of `n` entries held: which ones and how many is open, but no
fewer than must go for `room` to hold the rest. -/
def Block.bankHeld (b : Block) (l : List α) (n room : Nat) : List α × Block :=
  let (i, b) := b.choose l.length
  let (k, b) := b.choose (n + 1)
  ((l.drop i ++ l.take i).take (max k (l.length - room)), b)

/-- A free part of a list, of at most `n` of its members. -/
def Block.someOf (b : Block) (l : List α) (n : Nat) : List α × Block :=
  let (kept, b) := l.foldl (fun (acc : List α × Block) x =>
    let (c, b) := acc.2.choose 2
    (if c = 1 then acc.1 ++ [x] else acc.1, b)) ([], b)
  (kept.take n, b)

/-- A pool region that reaches past the words in service moves, or becomes unusable (R399). -/
def Block.movePool (b : Block) (k : Nat) : Block :=
  let r := b.reg k
  let n := r.length / 8
  if r.poolWord + n ≤ b.poolWords then b
  else
    match b.poolPlace n with
    | (some w, b) =>
      let old := (List.range n).map fun i => Tbl.get 0 b.pool (r.poolWord + i)
      let left := Tbl.drop (fun a => decide (r.poolWord ≤ a) && decide (a < r.poolWord + n)) b.pool
      { b with pool := (old.mapIdx fun i v => (i, v)).foldl (fun t (e : Nat × BitVec 64) => Tbl.set 0 t (w + e.1) e.2) left
        }.modReg k fun r => { r with poolWord := w }
    | (none, b) => b.spoilRegion k

/-- Poison one entry of a matching list after another until no more than `room` are left (R399). -/
def Block.shedMatch (b : Block) (use live room : Nat) : Block :=
  Nat.repeat (fun b => b.spoilMatch use) (live - room) b

/-- What carve use `use` does when a bank of it is lost, the active carve lowered by it (R399). -/
def Block.bankGone (b : Block) (use : Nat) : Block :=
  match use with
  | 3 =>
    let (l, b) := b.someOf ((b.moulds.filter fun e => e.2.pages != 0).map (·.1)) 32
    l.foldl (fun b i => (b.modMould i fun m => { m with doomed := true }).unloadDoomed i) b
  | 4 =>
    let l := Tbl.keys (b.ctxs.filter fun e => e.2.cached && b.ctxLoose e.1 e.2)
    let (l, b) := b.bankHeld l 512 b.ctxCacheSize
    l.foldl (fun b k => b.spillCtx k) b
  | 6 => b.shedMatch 6 (b.mctxs.map fun e => e.2.posted.length).sum (b.carveOf 6 * 16)
  | 7 => b.shedMatch 7 (b.inflight.filter fun e => e.2.st == .unexpected).length (b.carveOf 7 * 16)
  | 8 =>
    let l := Tbl.keys (b.regs.filter fun e => e.2.cached && b.regLoose e.1)
    let (l, b) := b.bankHeld l 4096 b.regCacheSize
    l.foldl (fun b k => b.spillReg k) b
  | 9 =>
    b.pickDo ((List.range 16).filter fun p => decide (384 + 512 ≤ b.replayDepth p)) fun b p =>
      { b with ladleLost := Tbl.set 0 b.ladleLost p (Tbl.get 0 b.ladleLost p + 512) }
  | 11 => (Tbl.keys (b.regs.filter fun e => e.2.live && e.2.pool)).foldl (fun b k => b.movePool k) b
  | 12 => b.shedMatch 12 b.inflight.length (b.carveOf 12 * 16)
  | 15 => { b with atomics := b.atomics.drop (b.atomics.length - b.atomicCacheSize) }
  | _ => b

/-- Capacity is lost for good (R398 stage 4, R399): quench, where the rule says so, after what has been raised
so far. -/
def Block.loseCapacity (b : Block) (g unit : Nat) : Block :=
  let (use, b) := b.someUse
  let b := b.capacityGone g unit
  if use ∈ [1, 2, 13, 14, 17] then
    { b with reacts := b.reacts ++ [⟨srcCode (blkSram g) 10 unit, blkSram g, 10, 0, none, true⟩] }
  else
    let b := (b.setCarve use (b.carveOf use - 128)).bankGone use
    match useQuota use with
    | some (k, size) => b.fitQuota k (b.carveOf use * 1024 / size)
    | none => b

/-! ## Sparing (R398) -/

/-- Free-pool space of groups that are off is given to no use (R448), in KiB. -/
def Block.poolOff (b : Block) : Nat :=
  4096 * ((List.range 48).filter fun g => !b.domOn (elSram g)).length

/-- Bank `k` leaves service: to the spare bank, to the free pool, or for good. -/
def Block.retireBank (b : Block) (g k : Nat) : Block :=
  let spare := !b.spareUsed g
  let b := b.dropBank g k
  if spare then b
  else if 128 + b.poolOff ≤ b.carveOf 18 then
    ({ b with carveFreeUsed := b.carveFreeUsed + 128 } : Block).setCarve 18 (b.carveOf 18 - 128)
  else b.loseCapacity g k

/-- A failing row takes a spare, or its bank leaves service. -/
def Block.spareRow (b : Block) (g k row : Nat) : Block :=
  let x := b.bank (bankKey g k)
  if x.retired then b
  else if 0 < x.spareRows then b.takeRow g k row
  else b.retireBank g k

/-- A row that has given an error may fail the next self-check: the part decides (log 25). -/
def Block.mayWeaken (b : Block) (key row : Nat) : Block :=
  let (n, b) := b.choose 2
  if n = 1 then { b with weakRows := b.weakRows.insert (key, row) } else b

/-- The word stands poisoned. -/
def Bank.badWord (x : Bank) (row word : Nat) : Option Poisoned :=
  x.poisoned.find? fun w => w.row == row && w.word == word

/-- The word is found written again. -/
def Bank.heal (x : Bank) (row word : Nat) : Bank :=
  { x with poisoned := x.poisoned.filter fun w => !(w.row == row && w.word == word) }

/-- An uncorrectable error in a word is found by a scrub read or a consumer's read (R398): the word is
poisoned, what it holds is lost, and its row takes a spare. -/
def Block.poison (b : Block) (g k row word : Nat) : Block :=
  let key := bankKey g k
  if (b.bank key).retired then b
  else
    let (use, b) := b.someUse
    let (entry, b) := b.poisonUse use (srcCode (blkSram g) 3 k)
    let x := b.bank key
    let b := b.setBank key { x with poisoned := x.poisoned ++ [⟨row, word, use, entry⟩] }
    (b.spareRow g k row).mayWeaken key row

/-- A consumer reads a word that stands poisoned (R398, R399): what it holds is lost already, and the service
processor traps each time. -/
def Block.readPoisoned (b : Block) (w : Poisoned) (code : Nat) : Block :=
  if w.use = 14 then b.emit (.spTrap code) else b

/-- A scrub read (R398). The address reported is that of the word within its group. A word that stands
poisoned has been reported; one that is found clean has been written again. -/
def Block.scrubRead (b : Block) (g k row word : Nat) (found : ScrubFinding) : Block :=
  let x := b.bank (bankKey g k)
  let addr := k * 2 ^ 17 + row * 64 + word * 8
  let pass := Tbl.get 0 b.scrubPasses g + 1
  let b := match found with
    | .clean => b.setBank (bankKey g k) (x.heal row word)
    | .oneBit =>
      let again := !(Tbl.get 0 x.rowErrors row == 0) && Tbl.get 0 x.rowErrors row != pass
      let b := b.setBank (bankKey g k) { x with rowErrors := Tbl.set 0 x.rowErrors row pass }
      let b := ((b.raise (blkSram g) 2 k addr).count (1024 + 8 * g) 1).mayWeaken (bankKey g k) row
      if again then b.spareRow g k row else b
    | .uncorrectable =>
      if (x.badWord row word).isSome then b
      else ((b.raise (blkSram g) 3 k addr).count (1024 + 8 * g + 1) 1).poison g k row word
  if k = 32 ∧ row = 2047 ∧ word = 7 then
    ({ b with scrubPasses := Tbl.set 0 b.scrubPasses g pass } : Block).count (1024 + 8 * g + 2) 1
  else b

/-! ## Raised sources -/

/-- An offset within the copies of FLT_STATUS, FLT_FORCE and FLT_REACT (R230). -/
def fltOffset (off : Nat) : Bool :=
  (decide (0xF000 ≤ off) && decide (off < 0xF010)) || (decide (0xF040 ≤ off) && decide (off < 0xF080))

/-- A parity error in group 0 of a function (R230): the field acts as its reset value. Bit 31 of the
detail says that the shadow copy is hit, whose next strobe is skipped (log 42). -/
def Block.groupParity (b : Block) (fid detail : Nat) : Block :=
  let off := detail % 2 ^ 31
  b.modFn fid fun f =>
    let f := { f with cfgErr := true, skip := if bit detail 31 then off :: f.skip else f.skip,
                      spoilt := off :: f.spoilt }
    if off = 0x10 then { f with evtQueue := 0 }
    else if off = 0x14 then { f with evtEnable := none }
    else f

/-- The function that a host-link controller's source concerns: `unit` names it (R395, log 42). -/
def srcFn (blk src unit : Nat) : Option Nat :=
  if 108 ≤ blk ∧ blk < 112 ∧ unit ≤ 64 ∧ (src = 0 ∨ src = 1 ∨ src = 8) then
    some (fidOf (blk - 108) unit)
  else none

/-- Counters of sources raised outside the scrub (R410). -/
def Block.countSource (b : Block) (blk src : Nat) : Block :=
  if 60 ≤ blk ∧ blk < 108 then
    if src = 2 ∨ src = 3 then b.count (1024 + 8 * (blk - 60) + (src - 2)) 1 else b
  else if src = 2 then b.count 1413 1
  else if src = 3 then b.count 1414 1
  else if 116 ≤ blk ∧ blk < 122 ∧ src = 8 then b.count 1412 1
  else b

/-- What a real event behind a source does beside raising it. -/
def Block.sourceEffect (b : Block) (blk src unit detail : Nat) : Block :=
  match srcFn blk src unit with
  | some fid => if src = 0 then b.groupParity fid detail else b
  | none =>
    if blk < 40 ∧ unit ≠ noUnit ∧ (src = 3 ∨ (src = 8 ∧ 7 ≤ blk % 10 ∧ blk % 10 ≤ 8)) then
      b.retireUnit blk unit
    else if 60 ≤ blk ∧ blk < 108 ∧ src = 3 then
      b.poison (blk - 60) (detail / 2 ^ 17 % 33) (detail / 64 % 2048) (detail / 8 % 8)
    else if blk = blkSvc ∧ src = 9 ∧ b.flash.stored.contains detail then b.defaultKey detail
    else b

/-- The poisoned word that a consumer's read of this event meets (R398). -/
def Block.readsPoisoned (b : Block) (blk src detail : Nat) : Option Poisoned :=
  if 60 ≤ blk ∧ blk < 108 ∧ src = 3 then
    (b.bank (bankKey (blk - 60) (detail / 2 ^ 17 % 33))).badWord (detail / 64 % 2048) (detail / 8 % 8)
  else none

/-- A fault source is raised by its event (R230, R393, R395); a word that stands poisoned is raised once
(R398). -/
def Block.sourceRaised (b : Block) (blk src unit detail : Nat) : Block :=
  match b.readsPoisoned blk src detail with
  | some w => b.readPoisoned w (srcCode blk 3 unit)
  | none =>
  if src = 0 ∧ fltOffset detail ∧ blk < 136 then b.enterQuench (srcCode blk 0 noUnit)
  else if (sourceInfo blk src).isNone then b
  else
    let fid := srcFn blk src unit
    let shown := if fid.isSome && src == 0 then detail % 2 ^ 31 else detail
    let b := (b.countSource blk src).raiseAs blk src (if fid.isSome then noUnit else unit) shown false
      fid
    b.sourceEffect blk src unit detail

/-- A handshake has stalled (R393, R401): one that a block reset has not cleared retires its unit. -/
def Block.stallRaised (b : Block) (blk unit stage : Nat) : Block :=
  let f := b.fltOf blk
  let again := f.stalled.contains unit && bit (b.maskOf blk 4) 2
  let b := (b.setFlt blk { f with stalled := f.stalled.insert unit }).raise blk 4 unit stage
  if again then b.retireUnit blk unit else b

/-- Sources of one block raised at the same instant make one reaction with the union of their masks (R394):
that of the first of them, or of the first that calls for quench, whose code `QUENCH_CAUSE` takes (R403). -/
def unionReaction (l : List Reaction) : List Reaction :=
  let full (r : Reaction) : Nat := if r.critical then r.mask ||| 10 else r.mask
  match (l.find? Reaction.quenches).or l.head? with
  | some r => [{ r with mask := l.foldl (fun m q => m ||| full q) 0 }]
  | none => []

/-- The address of `FLT_FORCE` of a block, where R241 places the block; its offset within the block
elsewhere (log 150). -/
def fltForceAt (blk : Nat) : Nat :=
  if blk < 40 then 0x20000000 + blk / 10 * 0x1000000 + blk % 10 * 0x100000 + 0xF008
  else if blk < 56 then 0x10000000 + (blk - 40) * 0x100000 + 0xF008
  else if blk = blkClkgen then clkgenBase + 0xF008
  else 0xF008

/-- A write of ones to FLT_FORCE (R394, R405): the capture holds the union of the masks. In quench it is
dropped. -/
def Block.forceFault (b : Block) (blk bits : Nat) : Block :=
  if b.quench then b
  else
    let before := b.reacts
    let first := (b.fltOf blk).status == 0
    let srcs := bitList 64 bits
    let b := srcs.foldl (fun b s =>
      if (sourceInfo blk s).isSome then b.raiseAs blk s noUnit 0 true none else b)
      { b with reacts := [] }
    let b := if first && !b.reacts.isEmpty then
        b.setFlt blk { b.fltOf blk with reaction := b.reacts.foldl (fun m r => m ||| r.mask) 0 }
      else b
    let b := { b with reacts := before ++ unionReaction b.reacts }
    if srcs.all fun s => (sourceInfo blk s).isSome then b
    else b.raise blk 1 noUnit (fltForceAt blk)

/-! ## Meanings -/

/-- FLT_FORCE (R405). -/
def execFltForce (blk : Fin 240) (bits : BitVec 64) (s : State) : Host.Outcome State Fault Refusal :=
  runR (fun b => if b.live then b.forceFault blk.val bits.toNat else b) s

/-- FAULT_SOURCE_RAISED (R393, R395). -/
def execFaultSourceRaised (blk : Fin 240) (src : Fin 64) (unit : Nat) (detail : BitVec 64) (s : State) :
    Host.Outcome State Fault Refusal :=
  runR (fun b =>
    if b.phase = .held ∨ b.phase = .dead then b
    else b.sourceRaised blk.val src.val (unit % 256) detail.toNat) s

/-- HANDSHAKE_STALL (R393). -/
def execHandshakeStall (blk : Fin 240) (unit : Nat) (stage : BitVec 64) (s : State) :
    Host.Outcome State Fault Refusal :=
  runR (fun b =>
    if b.phase = .held ∨ b.phase = .dead then b
    else b.stallRaised blk.val (unit % 256) stage.toNat) s

/-- SCRUB (R398). -/
def execScrub (g : Fin 48) (bank : Fin 33) (row : Nat) (word : Nat) (found : ScrubFinding) (s : State) :
    Host.Outcome State Fault Refusal :=
  runR (fun b =>
    if b.live && b.domOn (elSram g.val) && !(b.bank (bankKey g.val bank.val)).retired then
      b.scrubRead g.val bank.val row word found
    else b) s

/-- REGION_RETIRE (R402). -/
def execRegionRetire (r : Fin 4) (s : State) : Host.Outcome State Fault Refusal :=
  runR (fun b => if b.live then b.retireRegion r.val else b) s

end Sys2Proof.Machine
end

