-- ==== Sys2Proof/Machine/Forward.lean ====
section
/-! DEFINITION. The commands of routing and injection (R38, R102, R105), the timers of heat,
hold-off and gather, and the multicast kinds at a node (R101, R112, R114 to R116, R119). -/

namespace Sys2Proof.Machine

/-! ## Whose turn it is -/

/-- The packet at the head of VC `vc` of an input (R38); 16 is the local injection point. -/
def Block.headOf (b : Block) (row vc : Nat) : Option Pkt :=
  (if row = 16 then queueOf b.injQ vc else queueOf b.rxQ (pv row vc)).head?

/-- The packet that the router has made and that heads VC `vc` of the injection point, with its ports. -/
def Block.madeHead (b : Block) (row vc : Nat) : Option (Pkt × List Nat) :=
  if row = 16 then (queueOf b.madeQ vc).head? else none

/-- The output queues that packet `p` on VC `vc` of an input joins, as port and VC: its next hop, that of
its detour, or those of its copies (R38, R107, R114). -/
def Block.outsOf (b : Block) (row vc : Nat) (p : Pkt) : List (Nat × Nat) :=
  if p.malformed (b.pvcLimit row) then []
  else if p.mode = 0 then
    match b.hopOf row vc p with
    | .out q v =>
      if p.priv then (if b.privOk q p then [(q, v)] else [])
      else if b.portUp q then [(q, v)]
      else
        match b.detourSeg row q p with
        | some seg =>
          let k := p.splice seg
          let h := k.hop k.ptr
          if b.portUp (hopPort h) then [(hopPort h, k.vcOn (hopLayer h))] else []
        | none => []
    | _ => []
  else
    let w := Tbl.get 0 b.sprue p.tree
    if p.mode = 1 ∧ !p.isCtrl ∧ sprueValid w then b.treeOuts row vc w p else []

/-- The ports of a packet that the router has made, where it may use the link (R114, R117). -/
def Block.madeOuts (b : Block) (vc : Nat) (x : Pkt × List Nat) : List (Nat × Nat) :=
  (x.2.filter fun q => if x.1.priv then b.privOk q x.1 else b.portUp q).map fun q => (q, vc)

/-- The tree packet of an input that has copies left to make. -/
def Block.copyHead (b : Block) (row vc : Nat) : Option Copying := Tbl.get none b.copying (pv row vc)

/-- The queues that its copies may still join (R114, R117). -/
def Block.copyOuts (b : Block) (row vc : Nat) (c : Copying) : List (Nat × Nat) :=
  c.left.filter fun o => (b.treeOuts row vc c.entry c.pkt).contains o

/-- The output queues that the head packet of an input joins. -/
def Block.headOuts (b : Block) (row vc : Nat) : List (Nat × Nat) :=
  match b.copyHead row vc with
  | some c => b.copyOuts row vc c
  | none =>
    match b.madeHead row vc with
    | some x => b.madeOuts vc x
    | none =>
      match b.headOf row vc with
      | some p => b.outsOf row vc p
      | none => []

/-- The head packet of an input wants output VC `v` of port `q`. -/
def Block.wants (b : Block) (row vc q v : Nat) : Bool := (b.headOuts row vc).contains (q, v)

/-- Some VC of the input has a packet ready for output VC `v` of port `q`. -/
def Block.inputWants (b : Block) (row q v : Nat) : Bool :=
  (List.range 16).any fun vc => b.wants row vc q v

/-- The turn of input `row` at output VC `v` of port `q` has come (R105): it is the first input with
a packet ready after the one served last. -/
def Block.inTurn (b : Block) (row q v : Nat) : Bool :=
  let last := Tbl.get 16 b.rrIn (pv q v)
  let order := (List.range 17).map fun i => (last + 1 + i) % 17
  (order.find? fun r => b.inputWants r q v) == some row

/-- Take the head packet off its input. -/
def Block.takeHead (b : Block) (row vc : Nat) : Src × Block :=
  let b := if row = 16 then { b with injQ := Tbl.set [] b.injQ vc ((queueOf b.injQ vc).drop 1) }
    else { b with rxQ := Tbl.set [] b.rxQ (pv row vc) ((queueOf b.rxQ (pv row vc)).drop 1) }
  b.takePlace row vc

/-! ## What becomes of the packet -/

/-- A kind that is acknowledged (R44, R47, R132). -/
def Pkt.acked (p : Pkt) : Bool :=
  (p.format == 1 && [1, 2, 3, 4, 6].contains p.kind) || (p.format == 0 && p.kind == 3)

/-- A malformed packet is dropped and counted; at its destination a live connection answers it
(R58), a spilled one once it is filled (R131). -/
def Block.dropBad (b : Block) (row : Nat) (p : Pkt) : Block :=
  let b := b.dropMalformed row p
  if p.acked && faNode p.dstFa == b.nodeId then
    match b.contextFor p with
    | some c =>
      match b.touchCtx c with
      | (true, b) => b.answerBad c p
      | (false, b) => b.stash { pkt := p, row := row, vc := p.vcOn 0, bad := true } (.ctx c)
    | none => b
  else b

/-- A unicast packet takes its next hop, or ends here (R38, R107, R117). -/
def Block.forwardUni (b : Block) (src : Src) (vc : Nat) (p : Pkt) : Block :=
  let row := src.row
  match b.hopOf row vc p with
  | .deliver => b.deliver row vc p 0
  | .misroute => b.dropMisroute row p
  | .malformed => b.dropBad row p
  | .out q _ =>
    if p.priv then
      if b.privOk q p then b.takeHop src p else b.dropPriv p
    else if b.portUp q then b.takeHop src p
    else b.detour src q p

/-- The packet at the head of an input is handled (R38, R41, R58, R114), the turn of the queues in `go` having
come (R105). A gather packet, a
DELIVERY_REPORT and a flood BREAK are merged or spread here at every router (R116, R290, R294). -/
def Block.forwardPkt (b : Block) (src : Src) (vc : Nat) (p : Pkt) (go : List (Nat × Nat)) : Block :=
  let row := src.row
  if p.malformed (b.pvcLimit row) then b.dropBad row p
  else if p.mode = 0 then b.forwardUni src vc p
  else
    let w := Tbl.get 0 b.sprue p.tree
    if !sprueValid w then b.count 513 1
    else if p.mode = 2 ∨ p.isCtrl then b.deliver row vc p w
    else b.treeForward src vc w p go

/-- The output queues whose turn is this input's (R105), of those that its head packet joins. -/
def Block.turns (b : Block) (row vc : Nat) : List (Nat × Nat) :=
  (b.headOuts row vc).filter fun o => b.inTurn row o.1 o.2

/-- The turn of the head packet has come at some queue, where it needs one (R105). -/
def Block.mayForward (b : Block) (row vc : Nat) : Bool :=
  (b.headOuts row vc).isEmpty || !(b.turns row vc).isEmpty

/-- The queues have been served by input `row` (R105). -/
def Block.served (b : Block) (row : Nat) (outs : List (Nat × Nat)) : Block :=
  outs.foldl (fun b o => { b with rrIn := Tbl.set 16 b.rrIn (pv o.1 o.2) row }) b

/-- A packet that the router has made leaves the injection point for each of its ports, each in its turn
(R105); one that may not use a link is dropped there (R114, R117). -/
def Block.forwardMade (b : Block) (vc : Nat) (x : Pkt × List Nat) (go : List (Nat × Nat)) : Block :=
  let later := ((b.madeOuts vc x).filter fun o => !go.contains o).map (·.1)
  let rest := (queueOf b.madeQ vc).drop 1
  let b := { b with madeQ := Tbl.set [] b.madeQ vc
                       (if later.isEmpty then rest else (x.1, later) :: rest) }
  (x.2.filter fun q => !later.contains q).foldl (fun b q =>
    if x.1.priv then
      (if b.privOk q x.1 then b.joinOut q vc ⟨16, none⟩ x.1
       else if x.1.isCtrl then b.count 514 1 else b.dropPriv x.1)
    else if b.portUp q then b.joinOut q vc ⟨16, none⟩ x.1 else b.count 514 1) b

/-- A gather packet of a pour that needs a record here (R281): one of a pour that has ended needs none
(R302). -/
def Block.gathersHere (b : Block) (row : Nat) (p : Pkt) : Bool :=
  !p.malformed (b.pvcLimit row) && p.isMould && p.mode == 2 &&
    sprueValid (Tbl.get 0 b.sprue p.tree) && !b.gatherStale p

/-- More copies of a tree packet join their queues, those whose turn has come (R105); one whose link is gone
is dropped (R114, R117). -/
def Block.copyMore (b : Block) (row vc : Nat) (c : Copying) (go : List (Nat × Nat)) : Block :=
  let later := (b.copyOuts row vc c).filter fun o => !go.contains o
  let b := { b with copying := Tbl.set none b.copying (pv row vc)
                       (if later.isEmpty then none else some { c with left := later }) }
  let b := (c.left.filter fun o => !later.contains o).foldl
    (fun b o => b.treeCopy c.src vc c.entry c.pkt o.1) b
  b.leave c.src c.pkt.size

/-- Handle the head packet of VC `vc` of an input: the one whose copies are being made, one that the router
has made, one that has arrived or was injected (log 156). A gather packet that finds no record waits at the
head of its VC (R281). -/
def Block.forwardHead (b : Block) (row vc : Nat) : Block :=
  let go := b.turns row vc
  match b.copyHead row vc, b.madeHead row vc with
  | some c, _ => if b.mayForward row vc then (b.copyMore row vc c go).served row go else b
  | none, some x => if b.mayForward row vc then (b.forwardMade vc x go).served row go else b
  | none, none =>
    match b.headOf row vc with
    | none => b
    | some p =>
      if !b.mayForward row vc then b
      else if b.gathersHere row p && !b.gatherRoom p then
        if pv row vc ∈ b.gatherHeld then b
        else ({ b with gatherHeld := b.gatherHeld ++ [pv row vc] }).count 821 1
      else
        let b := if b.gathersHere row p then b.openGather p else b
        let b := { b with gatherHeld := b.gatherHeld.filter fun k => !(k == pv row vc) }
        let (src, b) := b.takeHead row vc
        ((b.forwardPkt src vc p go).leave src p.size).served row go

/-- PACKET_FORWARD (R38). -/
def execPacketForward (input : Fin 17) (vc : Fin 16) (s : State) :
    Host.Outcome State Fault Refusal :=
  runR (fun b => if b.live then b.forwardHead input.val vc.val else b) s

/-- GATHER_RECORD_GRANT (R281): a gather packet that waits for a record gets one. -/
def execGatherRecordGrant (input : Fin 17) (vc : Fin 16) (s : State) :
    Host.Outcome State Fault Refusal :=
  runR (fun b =>
    if b.live && b.gatherHeld.contains (pv input.val vc.val) then b.forwardHead input.val vc.val
    else b) s

/-- REQ_INJECT (R102): the next packet of an operation. -/
def execReqInject (op : Nat) (s : State) : Host.Outcome State Fault Refusal :=
  runR (fun b => if b.live then b.injectOp op else b) s

/-! ## Timers -/

/-- HEAT_AGE (R101): a path that had no echo for `HEAT_AGE` cools by half. -/
def execHeatAge (ctx : Nat) (path : Fin 4) (s : State) : Host.Outcome State Fault Refusal :=
  run (fun b =>
    let x := b.ctx ctx
    let j := path.val
    if x.st ≠ .free ∧ nth 0 x.heatAt j + b.obj 0x4010 2 ≤ b.now then
      b.setCtx ctx { x with heat := x.heat.set j (nth 0 x.heat j / 2),
                            heatAt := x.heatAt.set j b.now }
    else b) s

/-- PATH_HOLDOFF (R112): the path is a candidate again. -/
def execPathHoldoff (ctx : Nat) (path : Fin 4) (s : State) : Host.Outcome State Fault Refusal :=
  run (fun b =>
    let x := b.ctx ctx
    match nth none x.holdUntil path.val with
    | some t =>
      if t ≤ b.now then b.setCtx ctx { x with holdUntil := x.holdUntil.set path.val none } else b
    | none => b) s

/-- GATHER_WAIT (R116): a record that has been open for its wait closes. -/
def execGatherWait (tree : Fin 4096) (key : BitVec 32) (s : State) :
    Host.Outcome State Fault Refusal :=
  runR (fun b =>
    match b.reports.find? fun r => r.tree == tree.val && r.key == key with
    | some r => if b.live && decide (r.openedAt + r.wait ≤ b.now) then b.closeReport (Tbl.get 0 b.sprue r.tree) r else b
    | none => b) s

/-! ## Multicast at this node -/

/-- DELIVERY_REPORT (R116): a child's report joins its record. -/
def execDeliveryReport (i : Nat) (s : State) : Host.Outcome State Fault Refusal :=
  runR (fun b =>
    if !b.live then b
    else
      match b.takeArrival i 0 5 with
      | none => b
      | some (a, b) =>
        let p := a.pkt
        b.addReport a.entry p.tree p.psn a.row p.partition (p.at_ 48 4) (p.at_ 52 4)) s

/-- MCAST_PUT (R119, R155, R116): the copy is written where its checks pass, and this node adds its
contribution. A copy whose landing region is being filled waits for it. -/
def execMcastPut (i : Nat) (s : State) : Host.Outcome State Fault Refusal :=
  runR (fun b =>
    if !b.live then b
    else
      match b.takeArrival i 1 8 with
      | none => b
      | some (a, b) =>
        let p := a.pkt
        match b.mcastLand a with
        | (.adds d f, b) => b.addReport a.entry p.tree p.psn 16 p.partition d f
        | (.waits a w, b) => b.stash a w) s

end Sys2Proof.Machine
end

