-- ==== Sys2Proof/Machine/Moulds.lean ====
section
/-! DEFINITION. The mould commands: launching and arming (R282 to R285), steps (R274, R286, R287),
packets and breaks of a pour (R289 to R296), and the load checks (R277, R278). -/

namespace Sys2Proof.Machine

/-! ## Launching (R282, R283) -/

/-- A POUR that passed check 4 of R283 joins the pours of its index. -/
def Block.addPour (b : Block) (i : Nat) (p : Pour) : Block :=
  b.modMould i fun m => { m with pours := m.pours ++ [p], nextSeq := m.nextSeq + 1 }

/-- Check 6 of R283: the buffers pass R157 over their declared lengths. -/
def Block.pourBuffers (b : Block) (qu : Queue) (m : Mould) (d : Bytes) (held : Bool) : Nat :=
  let st := b.localCheck qu.hl qu.pd (fld d 24 4) (fld d 40 8) m.srcBytes none held
  if st ≠ stOk then st
  else b.localCheck qu.hl qu.pd (fld d 32 4) (fld d 48 8) m.dstBytes (some rightLocalWrite) held

/-- Checks 1 to 7 of R283 on a POUR that is issued, which gets its home (R20). One that passes them and for
which a BREAK stands recorded ends when its turn comes (R285); one that checks 5 to 7 break at once
needs that BREAK no more. -/
def Block.launchPour (b : Block) (q : Nat) (qu : Queue) (t : Taken) : Block :=
  let d := t.bytes
  let i := bits (fld d 16 8) 9 0
  let seq := BitVec.ofNat 32 (fld d 20 4)
  let m := b.mould i
  let times := t.times b.ftime
  let stop (st : Nat) : Block := b.complete q t.idx d st [] times
  if m.st ≠ .valid ∨ m.doomed then stop stMouldInvalid
  else if qu.hl ≠ m.hostLink then stop stAccess
  else if fld d 28 4 ≠ m.elements then stop stMalformed
  else if seq ≠ m.nextSeq then stop stMalformed
  else
    let (home, b) := b.newHome b.pourHomes
    let p : Pour := { q := q, idx := t.idx, fid := qu.fid, hl := qu.hl, desc := d, seq := seq,
                      home := home, trace := times }
    let b := b.addPour i p
    let bad := b.pourBuffers qu m d t.held
    let break_ (cause detail : Nat) : Block := b.breakHere i p cause detail
    if !bit (b.quota qu.hl 16) m.partition || !b.member m.partition b.nodeId then break_ 1 stFenced
    else if bad ≠ stOk then break_ 8 bad
    else if m.trees.all fun t => sprueValid (b.sprueOf t) && sprueLocal (b.sprueOf t) then b
    else break_ 8 stUnroutable

/-- POUR (R255, R282, R283). -/
def execPour (q : Nat) (s : State) : Host.Outcome State Fault Refusal :=
  runR (fun b => b.issueHead q 7 (fun _ => true) fun b qu t =>
    if b.headPlace q then (b.startSend q t).launchPour q qu t else b) s

/-- POUR_ARM (R285): the next pour of an index is armed. -/
def execPourArm (m : Fin 1024) (s : State) : Host.Outcome State Fault Refusal :=
  runR (fun b => if b.live then b.armPour m.val else b) s

/-! ## Steps (R274, R286, R287) -/

/-- A step that needs nothing but to start completes (R274). -/
def Block.finishStep (b : Block) (i k : Nat) : Block :=
  match (b.mould i).armed with
  | none => b
  | some p =>
    match p.running.find? fun r => r.step == k with
    | some r => if b.stepReady i p r then b.stepDone i r else b
    | none => b

/-- NOP (R274). -/
def execMouldNopStep (m : Fin 1024) (s : State) : Host.Outcome State Fault Refusal :=
  runR (fun b => b.startStep m.val sopNop fun b _ k _ =>
    (b.markDone m.val k).finishStep m.val k) s

/-- The next COPY step of an index waits for the fill of its buffer's region, whose key lies at `off` of the
POUR (R130, R154). -/
def Block.copyWaits (b : Block) (i sop off : Nat) : Bool × Block :=
  match (b.mould i).armed with
  | none => (false, b)
  | some p =>
    let t := (b.mould i).step p.next
    if b.live && t.sop == sop && t.len != 0 && p.mayStart t then
      match b.touchLocal p.hl (fld p.desc off 4) with
      | (some _, b) => (true, b)
      | (none, b) => (false, b)
    else (false, b)

/-- COPY_IN (R274, R293): the host range is read into slot A. -/
def execCopyIn (m : Fin 1024) (s : State) : Host.Outcome State Fault Refusal :=
  runR (fun b =>
    match b.copyWaits m.val sopCopyIn 24 with
    | (true, b) => b
    | (false, b) => b.startStep m.val sopCopyIn fun b p k t =>
      if t.len = 0 then b.markDone m.val k
      else
        match b.localRead p.hl (fld p.desc 24 4) (fld p.desc 40 8 + t.addrB) t.len
            (.mouldCopyIn m.val k p.seq) with
        | (true, b) => b
        | (false, b) => b.breakArmed m.val 9 stHostDmaError) s

/-- COPY_OUT (R274, R293): slot A is written to the host. -/
def execCopyOut (m : Fin 1024) (s : State) : Host.Outcome State Fault Refusal :=
  runR (fun b =>
    match b.copyWaits m.val sopCopyOut 32 with
    | (true, b) => b
    | (false, b) => b.startStep m.val sopCopyOut fun b p k t =>
      match b.localWrite p.hl (fld p.desc 32 4) (fld p.desc 48 8 + t.addrB)
          (b.slotRead m.val t.addrA t.len) with
      | (true, b) => b.markDone m.val k
      | (false, b) =>
        if t.len = 0 then b.markDone m.val k else b.breakArmed m.val 9 stHostDmaError) s

/-- The packets of a step on a tree are injected (R287). -/
def Block.injectTree (b : Block) (i : Nat) (p : Pour) (k : Nat) (t : Step) (mode : Nat) : Block :=
  (pourCuts t.len).foldl (fun b c =>
    b.inject ((b.stepPkt i p k t 0 t.addrA c.1 c.2).onTree mode t.tree)) b

/-- SEND (R274, R287): the packets go to the peer on its path; to this node they need none. -/
def execMouldSendStep (m : Fin 1024) (s : State) : Host.Outcome State Fault Refusal :=
  runR (fun b => b.startStep m.val sopSend fun b p k t =>
    let e := (b.mould m.val).peer t.arg
    let node := peerNode e
    let path := pathOf (b.bookOf node) (peerPath e)
    if node ≠ b.nodeId ∧ !path.valid then b.breakArmed m.val 2 0
    else
      (pourCuts t.len).foldl (fun b c =>
        b.inject (if node = b.nodeId then b.stepPkt m.val p k t node t.addrB c.1 c.2
          else (b.stepPkt m.val p k t node t.addrB c.1 c.2 (peerPath e)).withRoute path.privRoute)) b) s

/-- RECV (R274, R289): the step starts, and arriving packets complete it. -/
def execRecv (m : Fin 1024) (s : State) : Host.Outcome State Fault Refusal :=
  runR (fun b => b.startStep m.val sopRecv fun b _ _ _ => b) s

/-- What a COMBINE step writes (R274, R303). -/
def Block.combineStep (b : Block) (i : Nat) (t : Step) : Bytes × CruCount :=
  let code := t.arg
  let ty := cType code
  let k := if ty = 9 then 4 else 8
  match cOp code with
  | 8 => (encodeRange ty (b.slotRead i t.addrB (t.len / k)), {})
  | 9 => decodeRange ty (b.slotRead i t.addrB t.len)
  | _ => combineBytes code (b.slotRead i t.addrA t.len) (b.slotRead i t.addrB t.len)

/-- COMBINE (R274, R303 to R310). -/
def execCombine (m : Fin 1024) (s : State) : Host.Outcome State Fault Refusal :=
  runR (fun b => b.startStep m.val sopCombine fun b _ k t =>
    let (res, n) := b.combineStep m.val t
    ((b.countCru n).slotWrite m.val t.addrA res).markDone m.val k) s

/-- GATHER (R274, R287, R290): this node's contributions go up its tree. -/
def execGather (m : Fin 1024) (s : State) : Host.Outcome State Fault Refusal :=
  runR (fun b => b.startStep m.val sopGather fun b p k t => b.injectTree m.val p k t 2) s

/-- MCAST (R274, R287, R291): the root sends, and every other member receives. -/
def execMcast (m : Fin 1024) (s : State) : Host.Outcome State Fault Refusal :=
  runR (fun b => b.startStep m.val sopMcast fun b p k t =>
    if b.stepRoot t then b.injectTree m.val p k t 1 else b) s

/-- STEP_COMPLETE (R286). -/
def execStepComplete (m : Fin 1024) (step : Nat) (s : State) : Host.Outcome State Fault Refusal :=
  runR (fun b => if b.live then b.finishStep m.val step else b) s

/-! ## Packets and breaks -/

/-- MOULD_DATA (R289 to R291). -/
def execMouldData (i : Nat) (s : State) : Host.Outcome State Fault Refusal :=
  runR (fun b =>
    if !b.live then b
    else
      match b.takeArrival i 1 9 with
      | none => b
      | some (a, b) => if a.pkt.mode = 2 then b.gatherData a.row a.entry a.pkt else b.landData a.entry a.pkt) s

/-- BREAK (R294). -/
def execBreakMsg (i : Nat) (s : State) : Host.Outcome State Fault Refusal :=
  runR (fun b =>
    if !b.live then b
    else
      match b.takeArrival i 0 6 with
      | none => b
      | some (a, b) =>
        let p := a.pkt
        if p.at_ 50 1 ≠ 1 then b.dropMalformed a.row p
        else if p.mode = 0 then b.takeBreak p
        else
          let b := (b.floodOn a.row a.entry p).freeGathers (bits (p.at_ 48 2) 9 0) p.psn
          if sprueLocal a.entry then b.takeBreak p else b) s

/-- POUR_WATCHDOG (R296). -/
def execPourWatchdog (m : Fin 1024) (s : State) : Host.Outcome State Fault Refusal :=
  runR (fun b =>
    match (b.mould m.val).armed with
    | none => b
    | some p =>
      if b.live && decide (p.lastDoneAt + p.watchdog * 1000 ≤ b.now) then
        b.breakHere m.val p 3 0
      else b) s

/-! ## Load checks (R277) -/

/-- The effective privileged VC count of every enabled port is above `v` (R277 check 2). -/
def Block.pvcBelow (b : Block) (v : Nat) : Bool :=
  ((List.range 16).filter b.portEnabled).all fun p =>
    let cfg := (b.portCfg p).pvcCount
    let x := b.port p
    decide (v < if x.st = .active then min cfg x.pvcSettled else cfg)

/-- Check 2: the header. -/
def Block.headerOk (b : Block) (m : Mould) : Bool :=
  let im := m.image
  decide (1 ≤ fld im 6 2) && decide (fld im 6 2 ≤ 4096) && decide (fld im 8 2 ≤ 4096) &&
  decide (1 ≤ fld im 10 2) && decide (fld im 10 2 < 2 ^ 14) && decide (fld im 12 1 < 16) &&
  decide (fld im 13 1 < 4) && b.present m.hostLink && decide (fld im 14 1 < 8) &&
  fld im 15 1 == 0 && allZero (slice im 40 24) && b.pvcBelow m.breakPvc

/-- Check 3 on a step: its `SOP` is defined and its reserved bits are zero. -/
def Mould.stepBits (m : Mould) (k : Nat) : Bool :=
  let o := m.stepsAt + 16 * k
  let im := m.image
  let t := m.step k
  decide (t.sop ≤ 7) && !bit (fld im o 1) 7 && bits (fld im (o + 6) 4) 31 26 == 0 &&
    bits (fld im (o + 10) 3) 23 22 == 0 && bits (fld im (o + 13) 3) 23 22 == 0 &&
    (!t.onTree || bits t.slotB 21 12 == 0)

/-- Check 3 on the peer table and its padding. -/
def Mould.peersOk (m : Mould) : Bool :=
  (List.range m.peerCount).all (fun i => bits (m.peer i) 31 20 == 0) &&
    allZero (slice m.image (64 + 4 * m.peerCount) (m.stepsAt - 64 - 4 * m.peerCount))

/-- The step sends packets at some node. -/
def Step.sends (t : Step) : Bool := t.sop == sopSend || t.onTree

/-- Bytes of the ranges that a COMBINE step touches at slot A and slot B (R303). -/
def Step.touched (t : Step) : Nat × Nat :=
  let k := if cType t.arg = 9 then 4 else 8
  if t.sop ≠ sopCombine ∨ cMode t.arg ≠ 2 then (t.len, t.len)
  else if cOp t.arg = 8 then (t.len, t.len / k)
  else if cOp t.arg = 9 then (t.len / k, t.len)
  else (t.len, t.len)

/-- Checks 3 to 11 on step `k`. A landing range of `LEN` 0 holds no byte (R289). -/
def Block.stepOk (b : Block) (m : Mould) (code k : Nat) : Bool :=
  let t := m.step k
  let space := m.slotPages * 4096
  match code with
  | 3 => m.stepBits k
  | 4 => decide (t.depA ≤ k) && decide (t.depB ≤ k)
  | 5 => if t.sends then b.pvcBelow t.spvc else t.spvc == 0
  | 6 => decide (t.len ≤ 2 ^ 25) && decide (t.addrA + t.touched.1 ≤ space) &&
      (t.sop != sopCombine || decide (t.addrB + t.touched.2 ≤ space))
  | 7 => t.sop != sopSend || (decide (t.arg < m.peerCount) && decide (t.addrB + t.len ≤ 2 ^ 25))
  | 8 =>
    if t.sop = sopGather ∨ t.sop = sopCombine then
      codeOk t.arg (t.sop == sopCombine) (t.len == 0) && t.len % cSize (cType t.arg) == 0 &&
        !(t.sop == sopGather && t.len == 0 && t.arg != 0)
    else t.sop == sopSend || t.arg == 0
  | 9 => !t.onTree || (sprueValid (b.sprueOf t.tree) && sprueLocal (b.sprueOf t.tree))
  | 10 => (t.sop != sopCopyIn || decide (t.addrB + t.len ≤ m.srcBytes)) &&
      (t.sop != sopCopyOut || decide (t.addrB + t.len ≤ m.dstBytes))
  | _ =>
    !b.landing t || (List.range k).all fun j =>
      let u := m.step j
      !b.landing u || (t.addrA != u.addrA &&
        (t.len == 0 || u.len == 0 || !overlaps t.addrA t.len u.addrA u.len))

/-- The first failure of R277: its check code, and its step where it has one. -/
def Block.mouldFails (b : Block) (m : Mould) : Option (Nat × Option Nat) :=
  let im := m.image
  if im.length < 64 ∨ fld im 0 4 ≠ 0x31444C4D ∨ fld im 4 2 ≠ 1 ∨ im.length ≠ m.imageLen then
    some (1, none)
  else if !b.headerOk m then some (2, none)
  else
    ([3, 4, 5, 6, 7, 8, 9, 10, 11] : List Nat).findSome? fun code =>
      match (List.range m.stepCount).find? fun k => !b.stepOk m code k with
      | some k => some (code, some k)
      | none => if code = 3 ∧ !m.peersOk then some (3, none) else none

/-- What a mould needs is free (R278): its image's length in the store, its slot pages within its host
link's share, its early pages. -/
def Block.mouldFits (b : Block) (i : Nat) (m : Mould) : Bool :=
  let others := b.moulds.filter fun e => e.1 != i && e.2.st == .valid
  let sum (f : Mould → Nat) : Nat := others.foldl (fun n e => n + f e.2) 0
  let mine := others.foldl
    (fun n e => if e.2.hostLink = m.hostLink then n + e.2.pages else n) 0
  decide (sum (fun x => roundUp x.image.length 64) + roundUp m.image.length 64 ≤
    b.carveOf 13 * 1024) &&
  decide (mine + m.slotPages ≤ b.slotShare m.hostLink) &&
  decide (sum (·.pages) + m.slotPages ≤ b.slotTotal) &&
  decide (sum (·.early) + b.earlyPages m ≤ b.obj 0x6800 1)

/-- The checks of an index that is CHECKING end (R276 to R279): the verdict, and the block. What
`CHECK_STEP` holds for a failure that lies in no step is a free value (log 34). -/
def Block.checkMould (b : Block) (i : Nat) : Nat × Block :=
  let m := b.mould i
  match b.mouldFails m with
  | some (code, some k) =>
    (stMouldInvalid, b.setMould i { m with st := .invalid, checkCode := code, checkStep := k })
  | some (code, none) =>
    let (k, b) := b.choose 65536
    (stMouldInvalid, b.setMould i { m with st := .invalid, checkCode := code, checkStep := k })
  | none =>
    if b.mouldFits i m then
      (stOk, ((b.slotZero i).forgetBroken i).setMould i
        { m with st := .valid, checkCode := 0, checkStep := 0, nextSeq := 0, pages := m.slotPages,
                 early := b.earlyPages m, pours := [], held := [], broken := none, undef := none })
    else (stCapacity, b.setMould i {})

end Sys2Proof.Machine
end

