-- ==== Sys2Proof/Machine/Attest.lean ====
section
/-! DEFINITION. The making of attestation reports (R469 to R471, R474, R480), and the protocol of the DOE
mailboxes (R473). -/

namespace Sys2Proof.Machine

/-- The firmware that runs: none in recovery mode (R454). -/
def Block.firmware (b : Block) : Bytes := if b.phase = .recovery then [] else b.runningImage

/-- The service processor serves IDP: start-up is through, or the device is in recovery mode; not where
its own block caused the quench (R404, R454, R455). -/
def Block.serves (b : Block) : Bool :=
  (b.phase == .running || b.phase == .recovery) && !b.spStopped && b.clockOn clkSvc

/-- A new lower tree, certified by the next identity leaf, whose path is `path` (R467, R470). -/
def Block.makeLower (b : Block) (path : List Bytes) : Block :=
  let (ident, b) := b.random 16
  let (seed, b) := b.random 32
  let (c, b) := b.random 32
  let f := b.fuses
  let q := f.leafUsed
  let root := otsW4.root ident seed 10
  let cert := lmsSign 7 otsW8 f.identityI f.identitySeed path q c (lmsPub 6 otsW4 ident root)
  { b with fuses := { f with leafUsed := q + 1 },
           lower := { made := true, used := 0, leaf := q, cert := cert, ident := ident, seed := seed,
                      root := root } }

/-- `CONFIG_HASH` (R471): how the store is laid out for it is not given, and so a free function of what
the store holds (log 23). -/
def Block.configHash (b : Block) : Bytes :=
  sha256 (Config.storeBytes b.loaded.objects b.loaded.fences b.loaded.react)

/-- `RFLAGS` (R471). -/
def Block.reportFlags (b : Block) : Nat :=
  b2n b.time.synced + b2n (decide (32768 - b.fuses.leafUsed < 1024)) * 2 +
    b2n (b.phase == .recovery) * 4

/-- Bytes 0 to 175 of a report (R471), with the lower tree in place. -/
def Block.reportBody (b : Block) (requester : Nat) (nonce : Bytes) : Bytes :=
  let im := b.firmware
  toLe 4 0x52545856 ++ toLe 2 1 ++ toLe 2 4356 ++ toLe 1 b.lifeCycle ++ toLe 1 b.reportFlags ++
    zeros 2 ++ toLe 4 b.flash.bootCount ++ toLe 8 b.ftime ++ toLe 4 b.nodeId ++
    toLe 4 (fwVersion im) ++ toLe 1 (fwSvn im) ++ toLe 1 b.fuses.minSvn ++ toLe 1 requester ++
    zeros 1 ++ toLe 4 b.lower.used ++ toLe 4 b.lower.leaf ++ zeros 4 ++ slice nonce 0 32 ++
    slice im 32 32 ++ b.configHash ++
    (if b.lifeCycle = 2 then slice b.fuses.owner.keyHash 0 32 else zeros 32)

/-- A report over `nonce` by the lower tree in place (R470, R471). -/
def Block.signReport (b : Block) (requester : Nat) (nonce : Bytes) : Bytes × Block :=
  let body := b.reportBody requester nonce
  let (c, b) := b.random 32
  let t := b.lower
  let sig := toBe 4 1 ++ t.cert ++ lmsPub 6 otsW4 t.ident t.root ++
    lmsSign 6 otsW4 t.ident t.seed (otsW4.path t.ident t.seed 10 t.used) t.used c body
  (body ++ sig, { b with lower := { t with used := t.used + 1 } })

/-- A report over `nonce` (R469, R470, R471, R474, R480): a status other than OK, or the report. -/
def Block.attestReport (b : Block) (requester : Nat) (nonce : Bytes) : Nat × Bytes × Block :=
  if b.lcReset.isSome then (dsState, [], b)
  else if b.lower.made && decide (b.lower.used < 1024) then (stOk, b.signReport requester nonce)
  else if 32768 ≤ b.fuses.leafUsed then (stCapacity, [], b)
  else
    match b.identityPath b.fuses.leafUsed with
    | (some path, b) => (stOk, (b.makeLower path).signReport requester nonce)
    | (none, b) => (dsFlash, [], b)

/-- The answer of a PF's DOE mailbox (R473): a length of other than 36 bytes is MALFORMED, and in
quench no report is made (R365; log 46). -/
def Block.doeAnswer (b : Block) (hl : Nat) (req : Bytes) : Bytes × Block :=
  if req.length ≠ 36 then (toLe 4 stMalformed, b)
  else if fld req 0 4 ≠ 1 then (toLe 4 stBadOpcode, b)
  else if b.quench then (toLe 4 dsState, b)
  else
    match b.attestReport (8 + hl) (slice req 4 32) with
    | (0, r, b) => (toLe 4 stOk ++ r, b)
    | (st, _, b) => (toLe 4 st, b)

end Sys2Proof.Machine
end

