-- ==== Sys2Proof/Machine/Locks.lean ====
section
/-! DEFINITION. The lock-cell commands (R333 to R345): a write of 64 bits to `LOCK_CELL` by its
`OP`. A write by a function that cannot reach the device, and any write in quench, is dropped
(R210, R345). -/

namespace Sys2Proof.Machine

/-- `OP` of a cell write (R335). -/
def lockOp (w : Nat) : Nat := bits w 3 0

/-- No reserved bit of a cell write is set. -/
def lockWordOk (w : Nat) : Bool :=
  bits w 7 4 == 0 && bits w 31 17 == 0 && bits w 47 44 == 0 && bits w 63 50 == 0

/-- The grant interrupt that a request asks for: none at all where `INT_EN` is clear, and `none`
outside where its vector is not one of the function's (R337). -/
def lockVector (fid w : Nat) : Option (Option Nat) :=
  if bit w 16 then (if bits w 15 8 < vectorCount fid then some (some (bits w 15 8)) else none)
  else some none

/-- The function's `REFUSED` is cleared by its next ACQUIRE, TRY or CLAIM (R335). -/
def Block.lockTold (b : Block) (fid cell : Nat) : Block :=
  let l := b.lock cell
  b.setLock cell { l with refused := l.refused.filter fun r => !(r == masterOf fid) }

/-- A request is refused (R337, R341). -/
def Block.lockRefuse (b : Block) (fid cell : Nat) : Block :=
  let l := b.lock cell
  (b.setLock cell { l with refused := l.refused ++ [masterOf fid] }).count 801 1

/-- A request whose writer neither holds nor waits may be taken in this cell. -/
def Block.lockMayAsk (b : Block) (fid cell : Nat) : Bool :=
  (b.lock cell).mode != 1 && (b.lock cell).place (masterOf fid) == 0

/-- ACQUIRE (R337). -/
def Block.lockAcquire (b : Block) (fid cell w : Nat) : Block :=
  match lockVector fid w with
  | none => b.lockMisuse fid cell
  | some v =>
    if !b.lockMayAsk fid cell then b.lockMisuse fid cell
    else
      let b := b.lockTold fid cell
      let l := b.lock cell
      let me : LockWait := { master := masterOf fid, vector := v }
      if !l.held then b.lockGrant cell me false
      else if l.waiters.length < 32 then b.setLock cell { l with waiters := l.waiters ++ [me] }
      else b.lockRefuse fid cell

/-- TRY (R337). -/
def Block.lockTry (b : Block) (fid cell w : Nat) : Block :=
  match lockVector fid w with
  | none => b.lockMisuse fid cell
  | some v =>
    if !b.lockMayAsk fid cell then b.lockMisuse fid cell
    else
      let b := b.lockTold fid cell
      if !(b.lock cell).held then b.lockGrant cell { master := masterOf fid, vector := v } false
      else b.lockRefuse fid cell

/-- RELEASE, in every mode (R337, R338, R341). -/
def Block.lockRelease (b : Block) (fid cell : Nat) : Block :=
  if (b.lock cell).place (masterOf fid) = 1 then b.lockPass cell false false
  else b.lockMisuse fid cell

/-- CANCEL (R337). -/
def Block.lockCancel (b : Block) (fid cell : Nat) : Block :=
  let l := b.lock cell
  let m := masterOf fid
  if l.mode = 1 ∨ l.place m = 0 then b.lockMisuse fid cell
  else if l.place m = 1 then b.lockPass cell false false
  else b.setLock cell { l with waiters := l.waiters.filter fun x => !(x.master == m) }

/-- CLAIM (R341). A claim by the holder meets a held cell. -/
def Block.lockClaim (b : Block) (fid cell w : Nat) : Block :=
  if (b.lock cell).mode ≠ 1 ∨ bits w 43 32 ≠ masterOf fid then b.lockMisuse fid cell
  else
    let b := b.lockTold fid cell
    if (b.lock cell).held then b.lockRefuse fid cell
    else b.lockGrant cell { master := masterOf fid, vector := none } false

/-- FORCE_RELEASE (R342). The former holder has not released the cell, so `ORPHANED` stays. -/
def Block.lockForce (b : Block) (fid cell : Nat) : Block :=
  let l := b.lock cell
  if fidFn fid ≠ 0 ∨ l.mode ≠ 2 ∨ !l.held then b.lockMisuse fid cell
  else b.lockPass cell true l.orphaned

/-- SET_MODE (R340). The value 3 does not occur. -/
def Block.lockSetMode (b : Block) (fid cell w : Nat) : Block :=
  let l := b.lock cell
  if fidFn fid ≠ 0 ∨ l.held ∨ l.waiters ≠ [] ∨ bits w 49 48 = 3 then b.lockMisuse fid cell
  else b.setLock cell { l with mode := bits w 49 48 }

/-- A write reaches a cell of the writer's host link: `f` is what its `OP` does (R222, R336). -/
def Block.lockWrite (b : Block) (fid cell w : Nat) (f : Block → Block) : Block :=
  if !b.live || !b.fnUp fid then b
  else if !b.cellOf (fidLink fid) cell then b.badAccess fid (0x1000 + 8 * cell) 0 true
  else if !lockWordOk w then b.lockMisuse fid cell
  else f b

/-- Any write of a cell, by its `OP` (R336). -/
def Block.lockAny (b : Block) (fid cell w : Nat) : Block :=
  b.lockWrite fid cell w fun b =>
    match lockOp w with
    | 1 => b.lockAcquire fid cell w
    | 2 => b.lockTry fid cell w
    | 3 => b.lockRelease fid cell
    | 4 => b.lockCancel fid cell
    | 5 => b.lockClaim fid cell w
    | 6 => b.lockForce fid cell
    | 7 => b.lockSetMode fid cell w
    | _ => b.lockMisuse fid cell

/-- ACQUIRE (R337). Like its siblings it stands for a write whose `OP` is its own. -/
def execAcquire (hl : HostId) (f : FnId) (cell : Fin 256) (w : BitVec 64) (s : State) :
    Host.Outcome State Fault Refusal :=
  runR (fun b =>
    if lockOp w.toNat = 1 then
      b.lockWrite (fidOf hl f) cell w.toNat fun b => b.lockAcquire (fidOf hl f) cell w.toNat
    else b) s

/-- TRY (R337). -/
def execTryLock (hl : HostId) (f : FnId) (cell : Fin 256) (w : BitVec 64) (s : State) :
    Host.Outcome State Fault Refusal :=
  runR (fun b =>
    if lockOp w.toNat = 2 then
      b.lockWrite (fidOf hl f) cell w.toNat fun b => b.lockTry (fidOf hl f) cell w.toNat
    else b) s

/-- RELEASE (R337, R338). -/
def execRelease (hl : HostId) (f : FnId) (cell : Fin 256) (w : BitVec 64) (s : State) :
    Host.Outcome State Fault Refusal :=
  runR (fun b =>
    if lockOp w.toNat = 3 then
      b.lockWrite (fidOf hl f) cell w.toNat fun b => b.lockRelease (fidOf hl f) cell
    else b) s

/-- CANCEL (R337). -/
def execCancel (hl : HostId) (f : FnId) (cell : Fin 256) (w : BitVec 64) (s : State) :
    Host.Outcome State Fault Refusal :=
  runR (fun b =>
    if lockOp w.toNat = 4 then
      b.lockWrite (fidOf hl f) cell w.toNat fun b => b.lockCancel (fidOf hl f) cell
    else b) s

/-- CLAIM (R341). -/
def execClaim (hl : HostId) (f : FnId) (cell : Fin 256) (w : BitVec 64) (s : State) :
    Host.Outcome State Fault Refusal :=
  runR (fun b =>
    if lockOp w.toNat = 5 then
      b.lockWrite (fidOf hl f) cell w.toNat fun b => b.lockClaim (fidOf hl f) cell w.toNat
    else b) s

/-- FORCE_RELEASE (R342). -/
def execForceRelease (hl : HostId) (f : FnId) (cell : Fin 256) (w : BitVec 64) (s : State) :
    Host.Outcome State Fault Refusal :=
  runR (fun b =>
    if lockOp w.toNat = 6 then
      b.lockWrite (fidOf hl f) cell w.toNat fun b => b.lockForce (fidOf hl f) cell
    else b) s

/-- SET_MODE (R340). -/
def execSetMode (hl : HostId) (f : FnId) (cell : Fin 256) (w : BitVec 64) (s : State) :
    Host.Outcome State Fault Refusal :=
  runR (fun b =>
    if lockOp w.toNat = 7 then
      b.lockWrite (fidOf hl f) cell w.toNat fun b => b.lockSetMode (fidOf hl f) cell w.toNat
    else b) s

end Sys2Proof.Machine
end

