-- ==== Sys2Proof/Machine/Registers.lean ====
section
/-! DEFINITION. The register interface: the pages of BAR0 (R221 to R240), the mailbox registers (R353),
the service processor's space (R241, R242), the update strobe (R226 to R228), and the commands that
read and write registers. -/

namespace Sys2Proof.Machine

/-- A write to a register whose reserved bits, and whose RO bits that change, lie in these masks is
recorded (R225). -/
def badBits (v cur ro reserved : Nat) : Bool :=
  (v &&& reserved) != 0 || (v &&& ro) != (cur &&& ro)

/-- A bit mask of fields. -/
def mask (fs : List (Nat × Nat)) : Nat := fs.foldl (fun n f => n + field f.1 f.2) 0

/-- Record a write of a function under R225. -/
def Block.refuseWrite (b : Block) (fid off : Nat) : Block := b.badAccess fid off 1 true

/-- Record it where `c` holds. -/
def Block.recordIf (b : Block) (c : Bool) (fid off : Nat) : Block :=
  if c then b.refuseWrite fid off else b

/-! ## The update strobe (R226 to R228) -/

/-- Group 0: the function's page, but for a register whose shadow has had a parity error, or that software
has not written since an error (R230). A valid
event queue reports what was lost (R231, R267). -/
def Block.strobePage (b : Block) (fid : Nat) : Block :=
  let b := b.modFn fid fun f =>
    let keeps (off : Nat) : Bool := f.skip.contains off || f.spoilt.contains off
    { f with evtQueue := if keeps 0x10 then f.evtQueue else f.evtQueueSh,
             evtEnable := if keeps 0x14 then f.evtEnable else f.evtEnableSh,
             skip := [] }
  b.flushLost fid

/-- A VF record as a strobe applies it: a partition that is not allowed stays as it was (R240). -/
def vfApplied (allow : Nat) (old new : VfRec) : VfRec :=
  if bit allow (new.get 0x30) then new else new.set 0x30 (old.get 0x30)

/-- Group 1: the tenant-global region (R227, R240). -/
def Block.strobeTenant (b : Block) (hl : Nat) : Block :=
  let l := b.link hl
  let allow := b.quota hl 16
  let b := b.modLink hl fun l =>
    { l with faultVec := l.faultVecSh,
             vf := (List.range 65).foldl (fun t k =>
               Tbl.set {} t k (vfApplied allow (Tbl.get {} l.vf k) (Tbl.get {} l.vfSh k))) l.vf }
  (List.range 64).foldl (fun b k =>
    b.recordIf (!bit allow ((Tbl.get {} l.vfSh (k + 1)).get 0x30)) (fidOf hl 0)
      (0x11000 + 64 * k + 0x30)) b

/-- Groups 2 to 29. The dictionary writes the shadows of every group but 23 and 24 and strobes them in
one step, so those two alone have shadows of their own here. -/
def Block.strobeGroup (b : Block) (g : Nat) : Block :=
  if g = 23 then b.strobeReact else if g = 24 then b.strobeClocks else b

/-- `UPDATE` written by a function (R228). -/
def Block.updateFn (b : Block) (fid v : Nat) : Block :=
  let may := if fidFn fid = 0 then 3 else 1
  let b := b.recordIf (v &&& may != v) fid 0x18
  let b := if bit v 0 then b.strobePage fid else b
  if bit v 1 ∧ fidFn fid = 0 then b.strobeTenant (fidLink fid) else b

/-- `UPDATE` written by the service processor (R228, R241). -/
def Block.updateSp (b : Block) (v : Nat) : Block :=
  let b := ((bitList 32 v).filter fun g => decide (2 ≤ g) && decide (g < 30)).foldl
    (fun b g => b.strobeGroup g) b
  if v / 2 ^ 30 ≠ 0 then b.raise blkSvc 1 noUnit 0x100 else b

/-! ## Actions of single registers -/

/-- A write to `Q_WAKE` (R233). -/
def Block.wakeQueue (b : Block) (fid v : Nat) : Block :=
  let b := b.recordIf (2 ^ 15 ≤ v) fid 0x20
  let q := v % 2 ^ 15
  let x := b.queue q
  if x.live ∧ x.fid = fid ∧ x.ty < 2 then
    (b.setQueue q { x with interval := x.pollBase }).fallsDue q
  else b.refuseWrite fid 0x20

/-- A write to `TG_REBIND` (R217, R237). It never stays busy. -/
def Block.rebind (b : Block) (hl v : Nat) : Block :=
  let pf := fidOf hl 0
  let b := b.recordIf (v &&& mask [(15, 14), (30, 20)] != 0) pf 0x10010
  if !bit v 31 then b
  else
    let e := bits v 13 0
    let part := bits v 19 16
    let st := if !b.epInRange hl e || !(b.ep e).live then stAccess
      else if !bit (b.quota hl 16) part then stFenced else stOk
    let b := if st = stOk then b.modEp e fun x => { x with partition := part } else b
    b.modLink hl fun l => { l with rebindStatus := st }

/-- A write to `MBX_CTRL` (R353). -/
def Block.mbxWrite (b : Block) (hl v : Nat) : Block :=
  let pf := fidOf hl 0
  let l := b.link hl
  if bit v 0 ∧ l.mbxBusy then b.setLink hl { l with mbxOverrun := true }
  else
    let b := b.recordIf (v &&& mask [(7, 2), (31, 29)] != 0) pf 0x20000
    let keep := v &&& mask [(1, 1), (15, 8), (28, 16)]
    let b := b.modLink hl fun l => { l with mbxCtrl := BitVec.ofNat 32 keep }
    if !bit v 0 then b
    else
      let n := bits v 28 16
      if n < 32 ∨ 4096 < n then
        b.mbxAnswer hl (zeros 19 ++ toLe 1 stMalformed ++ zeros 12)
      else
        let msg := (List.range n).map fun i => Tbl.get 0 l.mbxReq i
        let b := b.modLink hl fun l => { l with mbxBusy := true }
        { b with idpQ := b.idpQ ++ [{ src := .mailbox hl, msg := msg }] }

/-- Vectors that are pending and open are sent (R207). -/
def Block.flushVectors (b : Block) (fid : Nat) : Block :=
  let f := b.fn fid
  (Tbl.keys f.pending).foldl (fun b v =>
    if f.vectorOpen v && b.hostRuns (fidLink fid) && !b.quench then
      (b.modFn fid fun f => { f with pending := Tbl.set false f.pending v false }).emit
        (.msix (fidLink fid) fid v)
    else b) b

/-! ## Reading BAR0 -/

/-- The offset is that of a 64-bit register of the page of `fid` (R222). -/
def Block.isWide (b : Block) (fid off : Nat) : Bool :=
  off == 0x28 || off == 0x148 || off == 0x150 ||
  (decide (0x100 ≤ off) && decide (off < 0x120) && off % 8 == 0) ||
  (decide (0x1000 ≤ off) && decide (off < 0x1800) && off % 8 == 0 &&
    b.cellOf (fidLink fid) ((off - 0x1000) / 8))

/-- A 64-bit register as read. -/
def Block.wideRead (b : Block) (fid off : Nat) : Nat :=
  let f := b.fn fid
  if off = 0x28 then b.ftime % 2 ^ 64
  else if off = 0x148 then f.res0.toNat
  else if off = 0x150 then f.res1.toNat
  else if off < 0x1000 then f.arg ((off - 0x100) / 8)
  else b.lockRead fid ((off - 0x1000) / 8)

/-- Bytes of the MSI-X Pending Bit Array. -/
def pbaBytes (fid : Nat) : Nat := max 8 (vectorCount fid / 8)

/-- The quota word at tenant-global offset 0x100 + 4i (R238). -/
def Block.quotaWord (b : Block) (hl i : Nat) : Nat :=
  if i = 0 then b.quota hl 1
  else if i = 1 then b.quota hl 2 + b.quota hl 3 * 2 ^ 16
  else b.quota hl (i + 2)

/-- `MBX_STATUS` as read. -/
def HostLink.mbxStatus (l : HostLink) : Nat :=
  b2n l.mbxBusy + b2n l.mbxDone * 2 + b2n l.mbxOverrun * 4 + l.mbxReplyLen * 2 ^ 16

/-- A 32-bit word of the PF's tenant-global region. -/
def Block.tenantRead (b : Block) (hl o : Nat) : Option Nat :=
  let l := b.link hl
  if o = 0 then some l.faultVecSh.toNat
  else if o = 0x10 then some 0
  else if o = 0x14 then some (l.rebindStatus * 256)
  else if 0x100 ≤ o ∧ o < 0x144 then some (b.quotaWord hl ((o - 0x100) / 4))
  else if 0x1000 ≤ o ∧ o < 0x2000 ∧ vfFieldWidth (o % 64) ≠ 0 then
    some ((Tbl.get {} l.vfSh ((o - 0x1000) / 64 + 1)).get (o % 64))
  else none

/-- A 32-bit word of the mailbox region. -/
def HostLink.mailboxRead (l : HostLink) (o : Nat) : Option Nat :=
  if o = 0 then some l.mbxCtrl.toNat
  else if o = 4 then some l.mbxStatus
  else if 0x1000 ≤ o ∧ o < 0x2000 then
    some (leNat ((List.range 4).map fun i => Tbl.get 0 l.mbxReq (o - 0x1000 + i)))
  else if 0x2000 ≤ o ∧ o < 0x3000 then some (fld l.mbxReply (o - 0x2000) 4)
  else none

/-- The offset lies in an area of plain words: the MSI-X structures and the mailbox buffers. -/
def wordArea (fid off : Nat) : Bool :=
  (decide (0xE000 ≤ off) && decide (off < 0xE000 + 16 * vectorCount fid)) ||
  (decide (0xF000 ≤ off) && decide (off < 0xF000 + pbaBytes fid)) ||
  (fidFn fid == 0 && decide (0x21000 ≤ off) && decide (off < 0x23000))

/-- A 32-bit register or word at an offset that is a multiple of 4; none for a reserved location. -/
def Block.wordRead (b : Block) (fid off : Nat) : Option Nat :=
  let f := b.fn fid
  match off with
  | 0x00 => some (b.fnId fid)
  | 0x04 => some (b.fnStatus fid)
  | 0x08 => some f.badAccess.toNat
  | 0x10 => some f.evtQueueSh.toNat
  | 0x14 => some (evtBits fid f.evtEnableSh)
  | 0x18 => some 0
  | 0x20 => some 0
  | 0x140 => some 0
  | 0x144 => some f.cmdStatus
  | _ =>
    if 0xE000 ≤ off ∧ off < 0xE000 + 16 * vectorCount fid then some (f.msixWord (off - 0xE000))
    else if 0xF000 ≤ off ∧ off < 0xF000 + pbaBytes fid then
      some ((List.range 32).foldl (fun n i =>
        if Tbl.get false f.pending ((off - 0xF000) * 8 + i) then n + 2 ^ i else n) 0)
    else if fidFn fid ≠ 0 then none
    else if 0x10000 ≤ off ∧ off < 0x20000 then b.tenantRead (fidLink fid) (off - 0x10000)
    else if 0x20000 ≤ off ∧ off < 0x30000 then (b.link (fidLink fid)).mailboxRead (off - 0x20000)
    else none

/-- How a BAR0 access finds its register (R223): whole, a half of a 64-bit register, a word, or not at
all, with the `KIND` recorded. -/
inductive Found where
  | wide
  | lower
  | upper
  | word
  | twoWords
  | bad (kind : Nat)
  deriving DecidableEq, Repr

/-- Find the register behind an access. An aligned 64-bit access that covers two 32-bit registers is refused with
`KIND` 3, outside the areas that are tables of words: R223 asks for 32-bit accesses and does not say what becomes of
such a one (log 185). -/
def Block.find (b : Block) (fid off size : Nat) : Found :=
  if (size ≠ 4 ∧ size ≠ 8) ∨ off % size ≠ 0 then .bad 3
  else if size = 8 then
    if b.isWide fid off then .wide
    else if wordArea fid off then .twoWords
    else if (b.wordRead fid off).isSome then .bad 3
    else .bad 0
  else if b.isWide fid off then .lower
  else if 4 ≤ off ∧ b.isWide fid (off - 4) then .upper
  else if (b.wordRead fid off).isSome then .word
  else .bad 0

/-- An access that the device ends with Completer Abort (R224), which AER records (R202): bit 15, as PCI
Express numbers it. -/
def Block.abortRead (b : Block) (who : Accessor) (fid off : Nat) : Block :=
  (b.aerSet fid 15).emit (.abort who off)

/-- A read of BAR0 (R223, R224). -/
def Block.hostRead (b : Block) (who : Accessor) (fid off size : Nat) : Block :=
  let answer (b : Block) (v : Nat) : Block := b.emit (.regData who off v)
  let word (o : Nat) : Nat := (b.wordRead fid o).getD 0
  if b.phase ≠ .running ∨ (b.link (fidLink fid)).st ≠ .dlActive then b
  else if !b.fnUp fid then b.abortRead who fid off
  else
    match b.find fid off size with
    | .bad k => (b.badAccess fid off k false).abortRead who fid off
    | .wide => answer b (b.wideRead fid off)
    | .twoWords => answer b (word off + word (off + 4) * 2 ^ 32)
    | .word => answer b (word off)
    | .lower =>
      let v := b.wideRead fid off
      let hi := some (BitVec.ofNat 32 (v / 2 ^ 32))
      answer (b.modFn fid fun f => { f with latch := Tbl.set none f.latch off hi }) (v % 2 ^ 32)
    | .upper =>
      match Tbl.get none (b.fn fid).latch (off - 4) with
      | some h =>
        answer (b.modFn fid fun f => { f with latch := Tbl.set none f.latch (off - 4) none }) h.toNat
      | none => answer b (b.wideRead fid (off - 4) / 2 ^ 32)

/-! ## Writing BAR0 -/

/-- A write of a whole 64-bit register by an access at `at_`. -/
def Block.wideWrite (b : Block) (fid at_ off v : Nat) : Block :=
  if off = 0x28 ∨ off = 0x148 ∨ off = 0x150 then b.refuseWrite fid at_
  else if off < 0x1000 then
    b.modFn fid fun f => { f with args := f.args.set ((off - 0x100) / 8) (BitVec.ofNat 64 v) }
  else b.lockAny fid ((off - 0x1000) / 8) v

/-- A write of `CMD_CODE` (R234): a reserved bit completes the command with MALFORMED, and is recorded as
in any register that is no command argument (R225). -/
def Block.codeWrite (b : Block) (fid v : Nat) : Block :=
  if v < 256 then b.cmdCode fid v
  else
    (b.refuseWrite fid 0x140).command fid (v % 256) false [field 63 0, field 63 0, field 63 0, field 63 0] fun b _ =>
      endsWith stMalformed b

/-- A write of an MSI-X table word: vector control keeps its mask bit (log 8). -/
def Block.msixWrite (b : Block) (fid o v : Nat) : Block :=
  let v := if o % 16 = 12 then v % 2 else v
  let b := b.modFn fid fun f =>
    { f with msixTable := Tbl.set (if o % 16 = 12 then 1 else 0) f.msixTable o v }
  b.flushVectors fid

/-- The bits of a VF record field. -/
def vfFieldMask (off : Nat) : Nat := if off = 0x34 then 0x801F else 2 ^ vfFieldWidth off - 1

/-- A write of a word of the tenant-global region. -/
def Block.tenantWrite (b : Block) (hl o v : Nat) : Block :=
  let pf := fidOf hl 0
  if o = 0 then
    (b.recordIf (v &&& 0xFFFF7F00 != 0) pf 0x10000).modLink hl fun l =>
      { l with faultVecSh := BitVec.ofNat 32 (v &&& 0x80FF) }
  else if o = 0x10 then b.rebind hl v
  else if 0x1000 ≤ o then
    let k := (o - 0x1000) / 64 + 1
    let m := vfFieldMask (o % 64)
    (b.recordIf (v &&& m != v) pf (0x10000 + o)).modLink hl fun l =>
      { l with vfSh := Tbl.set {} l.vfSh k ((Tbl.get {} l.vfSh k).set (o % 64) (v &&& m)) }
  else b.refuseWrite pf (0x10000 + o)

/-- A write of a word of the mailbox region. -/
def Block.mailboxWrite (b : Block) (hl o v : Nat) : Block :=
  let pf := fidOf hl 0
  if o = 0 then b.mbxWrite hl v
  else if o = 4 then
    let cur := (b.link hl).mbxStatus
    (b.recordIf (badBits v cur (mask [(0, 0), (28, 16)]) (mask [(15, 3), (31, 29)])) pf 0x20004
      ).modLink hl fun l => { l with mbxDone := l.mbxDone && !bit v 1,
                                     mbxOverrun := l.mbxOverrun && !bit v 2 }
  else if o < 0x2000 then
    b.modLink hl fun l =>
      { l with mbxReq := (List.range 4).foldl (fun t i =>
          Tbl.set 0 t (o - 0x1000 + i) (BitVec.ofNat 8 (v / 256 ^ i))) l.mbxReq }
  else b.refuseWrite pf (0x20000 + o)

/-- A write of a 32-bit register or word that exists (R12, R225). -/
def Block.wordWrite (b : Block) (fid off v : Nat) : Block :=
  let hl := fidLink fid
  match off with
  | 0x04 =>
    (b.recordIf (badBits v (b.fnStatus fid) 0x2FF 0xFFFFFC00) fid off).modFn fid fun f =>
      { f with cfgErr := f.cfgErr && !bit v 8 }
  | 0x08 =>
    let cur := (b.fn fid).badAccess.toNat
    let b := b.modFn fid fun f =>
      { f with badAccess := if bit v 31 then f.badAccess &&& 0x7FFFFFFF else f.badAccess }
    b.recordIf (badBits v cur (mask [(28, 0)]) (mask [(30, 29)])) fid off
  | 0x10 =>
    (b.recordIf (v / 2 ^ 16 != 0) fid off).modFn fid fun f =>
      { f with evtQueueSh := BitVec.ofNat 32 (v % 2 ^ 16), spoilt := f.spoilt.filter fun o => o != off }
  | 0x14 =>
    b.modFn fid fun f =>
      let m := v / 2 ^ 16
      let old := evtBits fid f.evtEnableSh
      let new := BitVec.ofNat 16 ((old &&& (0xFFFF - m)) ||| (v % 2 ^ 16 &&& m))
      { f with evtEnableSh := some (BitVec.ofNat 16 (evtBits fid (some new))),
               spoilt := f.spoilt.filter fun o => o != off }
  | 0x18 => b.updateFn fid v
  | 0x20 => b.wakeQueue fid v
  | 0x140 => b.codeWrite fid v
  | 0x144 =>
    (b.recordIf (badBits v (b.fn fid).cmdStatus (mask [(0, 0), (23, 8)]) (mask [(7, 2), (31, 24)]))
      fid off).modFn fid fun f => { f with overrun := f.overrun && !bit v 1 }
  | _ =>
    if 0xE000 ≤ off ∧ off < 0xE000 + 16 * vectorCount fid then b.msixWrite fid (off - 0xE000) v
    else if off < 0x10000 then b.refuseWrite fid off
    else if off < 0x20000 then b.tenantWrite hl (off - 0x10000) v
    else b.mailboxWrite hl (off - 0x20000) v

/-- A write of BAR0 (R223 to R225). -/
def Block.hostStore (b : Block) (fid off size v : Nat) : Block :=
  if !b.live || !b.fnUp fid then b
  else
    match b.find fid off size with
    | .bad k => b.badAccess fid off k true
    | .wide => b.wideWrite fid off off v
    | .twoWords => (b.wordWrite fid off (v % 2 ^ 32)).wordWrite fid (off + 4) (v / 2 ^ 32)
    | .word => b.wordWrite fid off v
    | .lower =>
      if off = 0x28 ∨ off = 0x148 ∨ off = 0x150 then b.refuseWrite fid off
      else
        b.modFn fid fun f =>
          { f with heldLow := Tbl.set none f.heldLow off (some (BitVec.ofNat 32 v)) }
    | .upper =>
      let at_ := off - 4
      let low := match Tbl.get none (b.fn fid).heldLow at_ with
        | some h => h.toNat
        | none => b.wideRead fid at_ % 2 ^ 32
      let b := b.modFn fid fun f => { f with heldLow := Tbl.set none f.heldLow at_ none }
      b.wideWrite fid off at_ (low + v * 2 ^ 32)

/-- A configuration request finds a function that exists and is not ready: it is answered with Request
Retry Status (R208, R212). -/
def Block.cfgRetry (b : Block) (fid : Nat) : Bool :=
  b.phase == .running && b.fnLive fid && (b.link (fidLink fid)).st == .dlActive && !b.fnThere fid

/-- Sizes of a payload or a read request that system software may set (R202). -/
def cfgSizeOk (v : Nat) : Bool := [128, 256, 512, 1024, 2048, 4096].contains v

/-- Set the power state of a function: D0 or D3hot (R202). Back in D0 it sends the interrupts and the
count of events that were held (log 123). -/
def Block.setPower (b : Block) (fid v : Nat) : Block :=
  if v = 3 then b.modFn fid fun f => { f with d3hot := true }
  else if v = 0 then ((b.modFn fid fun f => { f with d3hot := false }).flushVectors fid).flushLost fid
  else b

/-- Write one of the AER registers (R202): recorded errors are cleared by ones. -/
def Aer.write (a : Aer) (i : Nat) (v : BitVec 32) : Aer :=
  match i with
  | 0 => { a with uncStatus := a.uncStatus &&& ~~~v }
  | 1 => { a with uncMask := v }
  | 2 => { a with uncSeverity := v }
  | 3 => { a with corStatus := a.corStatus &&& ~~~v }
  | _ => { a with corMask := v }

/-- Read one of the AER registers. -/
def Aer.read (a : Aer) (i : Nat) : BitVec 32 :=
  match i with
  | 0 => a.uncStatus
  | 1 => a.uncMask
  | 2 => a.uncSeverity
  | 3 => a.corStatus
  | _ => a.corMask

/-- What DOE Discovery says of index `i` (R202, R473): vendor ID and object type, and the next index. -/
def Block.doeEntry (b : Block) (i : Nat) : Bytes :=
  if i = 0 then toLe 2 1 ++ toLe 1 0 ++ toLe 1 1
  else if i = 1 then toLe 2 b.fuses.vendorId ++ toLe 1 1 ++ toLe 1 0
  else toLe 2 0xFFFF ++ zeros 2

/-- A data object of a DOE mailbox (R202): vendor, type, and its length in 32-bit words. -/
def doeObject (vendor ty : Nat) (body : Bytes) : Bytes :=
  toLe 2 vendor ++ toLe 1 ty ++ zeros 1 ++ toLe 4 (2 + body.length / 4) ++ body

/-- The data object written to a DOE mailbox is answered: DOE Discovery, and the attestation protocol where
the service processor serves (R202, R473; log 153). -/
def Block.doeGo (b : Block) (hl : Nat) : Block :=
  let ask := (b.link hl).doeIn
  let b := b.modLink hl fun l => { l with doeIn := [] }
  let answer (b : Block) (msg : Bytes) : Block := b.modLink hl fun l => { l with doeOut := msg }
  if ask.length = 12 ∧ fld ask 0 2 = 1 ∧ fld ask 2 1 = 0 then
    answer b (doeObject 1 0 (b.doeEntry (fld ask 8 1)))
  else if 8 ≤ ask.length ∧ fld ask 0 2 = b.fuses.vendorId ∧ fld ask 2 1 = 1 ∧ b.serves then
    let (msg, b) := b.doeAnswer hl (ask.drop 8)
    answer b (doeObject b.fuses.vendorId 1 msg)
  else b

/-- A write of the PF's DOE registers (R202): control, write data, read data. -/
def Block.doeWrite (b : Block) (hl i v : Nat) : Block :=
  match i with
  | 0 =>
    if bit v 0 then b.modLink hl fun l => { l with doeIn := [], doeOut := [] }
    else if bit v 31 then b.doeGo hl
    else b
  | 1 => b.modLink hl fun l => { l with doeIn := l.doeIn ++ toLe 4 v }
  | _ => b.modLink hl fun l => { l with doeOut := l.doeOut.drop 4 }

/-- The PF's DOE registers as read: the status, with Data Object Ready in bit 31, and read data. -/
def HostLink.doeRead (l : HostLink) (i : Nat) : Nat :=
  match i with
  | 0 => b2n (!l.doeOut.isEmpty) * 2 ^ 31
  | 1 => 0
  | _ => fld l.doeOut 0 4

/-- A write of a function's configuration space (R202, R207). -/
def Block.cfgStore (b : Block) (who : Accessor) (fid addr v : Nat) : Block :=
  let on := bit v 0
  let pf := fidFn fid == 0
  if b.cfgRetry fid then b.emit (.retry who addr)
  else if b.phase ≠ .running ∨ !b.fnThere fid then b
  else
    match addr with
    | 0 => b.modFn fid fun f => { f with atomicEn := on }
    | 1 => b.modFn fid fun f => { f with pasidEn := on }
    | 2 => (b.modFn fid fun f => { f with msixEn := on }).flushVectors fid
    | 3 => (b.modFn fid fun f => { f with fnMask := on }).flushVectors fid
    | 4 => if pf then b.modLink (fidLink fid) fun l => { l with tag10 := on } else b
    | 5 => b.setPower fid v
    | 6 => if pf && cfgSizeOk v then b.modLink (fidLink fid) fun l => { l with mrrs := v } else b
    | 7 => if pf && cfgSizeOk v then b.modLink (fidLink fid) fun l => { l with mps := v } else b
    | _ =>
      if 32 ≤ addr ∧ addr < 37 then
        b.modFn fid fun f => { f with aer := f.aer.write (addr - 32) (BitVec.ofNat 32 v) }
      else if 40 ≤ addr ∧ addr < 43 ∧ pf then b.doeWrite (fidLink fid) (addr - 40) v
      else b

/-- What a read of a function's configuration space shows (R202, R205): 0 where there is nothing. -/
def Block.cfgWord (b : Block) (fid addr : Nat) : Nat :=
  let f := b.fn fid
  let l := b.link (fidLink fid)
  let pf := fidFn fid == 0
  match addr with
  | 0 => b2n f.atomicEn
  | 1 => b2n f.pasidEn
  | 2 => b2n f.msixEn
  | 3 => b2n f.fnMask
  | 4 => if pf then b2n l.tag10 else 0
  | 5 => if f.d3hot then 3 else 0
  | 6 => if pf then l.mrrs else 0
  | 7 => if pf then l.mps else 0
  | 8 => if pf then l.numVfs else 0
  | 9 => if pf then b2n l.vfEnable else 0
  | 16 => b.fuses.vendorId
  | 17 => if pf then 0x6416 else 0x6417
  | 18 => 0xB0
  | 19 => 0x028000
  | 20 => if pf then 2 ^ 26 else 2 ^ 16
  | 21 => vectorCount fid
  | 22 => if pf then 64 else 0
  | 23 => if pf then 64 else 0
  | 24 => if pf then 1 else 0
  | 25 => if pf then 1 else 0
  | 26 => 32
  | _ =>
    if 32 ≤ addr ∧ addr < 37 then (f.aer.read (addr - 32)).toNat
    else if 40 ≤ addr ∧ addr < 43 ∧ pf then l.doeRead (addr - 40)
    else 0

/-- A read of a function's configuration space (R205, R208, R210, R212): Request Retry Status before the
function is ready; in a reset of the function, where its own settings stand at reset, the reset values. -/
def Block.cfgRead (b : Block) (who : Accessor) (fid addr : Nat) : Block :=
  let there := b.fnThere fid || ((b.fn fid).flr && (b.link (fidLink fid)).ready &&
    (b.link (fidLink fid)).st == .dlActive)
  if b.cfgRetry fid then b.emit (.retry who addr)
  else if b.phase = .running ∧ there then b.emit (.regData who addr (b.cfgWord fid addr))
  else b

/-! ## The service processor's space (R241, R242) -/

/-- The addresses of the three group masks within the global block, which R241 does not give (log 43). -/
def portMaskAt : Nat := 0x110
def regionMaskAt : Nat := 0x114
def clusterMaskAt : Nat := 0x118

/-- `PORT_GROUP_MASK`, which object 0x3000 shows as well (R241, R375). -/
def Block.portMask (b : Block) : Nat := b.obj 0x3000 0

/-- What an address of the service processor's space names. -/
inductive SpLoc where
  /-- A register of the global block. -/
  | global (off : Nat)
  /-- A register of one block. -/
  | block (blk off : Nat)
  /-- An alias: the blocks it selects. -/
  | many (blks : List Nat) (off : Nat)
  | nowhere
  deriving DecidableEq, Repr

/-- The regions that an alias digit selects, and whether it is one. -/
def Block.selRegions (b : Block) (r : Nat) : List Nat :=
  if r < 4 then [r] else if r = 4 then List.range 4 else bitList 4 b.regionMask
/-- The clusters that an alias digit selects. -/
def Block.selClusters (b : Block) (c : Nat) : List Nat :=
  if c < 10 then [c] else if c = 10 then List.range 10 else bitList 10 b.clusterMask

/-- Take an address apart (R241). -/
def Block.spLoc (b : Block) (addr : Nat) : SpLoc :=
  let off := addr % 0x100000
  if addr < 0x100000 then .global addr
  else if 0x10000000 ≤ addr ∧ addr < 0x11200000 then
    let p := (addr - 0x10000000) / 0x100000
    if p < 16 then .block (blkPort p) off
    else .many ((if p = 16 then List.range 16 else bitList 16 b.portMask).map blkPort) off
  else if 0x20000000 ≤ addr ∧ addr < 0x26000000 ∧ (addr - 0x20000000) % 0x1000000 < 0xC00000 then
    let r := (addr - 0x20000000) / 0x1000000
    let c := (addr - 0x20000000) % 0x1000000 / 0x100000
    if r < 4 ∧ c < 10 then .block (blkCluster r c) off
    else .many ((b.selRegions r).flatMap fun r => (b.selClusters c).map (blkCluster r)) off
  else if clkgenBase ≤ addr ∧ addr < clkgenBase + 0x100000 then .block blkClkgen off
  else .nowhere

/-- The block is retired and skipped by an alias (R242). -/
def Block.skipped (b : Block) (blk : Nat) : Bool := b.blkRetired blk

/-- A fault register of a block exists at the offset, for an access of the size (R393). -/
def fltReg (off size : Nat) : Bool :=
  (decide (0xF000 ≤ off) && decide (off < 0xF030) && off % size == 0 && (size == 4 || size == 8)) ||
  (decide (0xF040 ≤ off) && decide (off < 0xF080) && off % 4 == 0 && size == 4)

/-- The capture record of a block (R394). -/
def Block.capture (b : Block) (blk : Nat) : Bytes :=
  let f := b.fltOf blk
  toLe 4 f.source ++ toLe 4 f.more ++ toLe 8 f.time ++ toLe 8 f.detail.toNat ++ toLe 1 f.reaction ++
    toLe 1 (b2n f.forced) ++ zeros 6

/-- A fault register is read: its value, a read of the lower half of FLT_STATUS latching the upper half, and
the next read of that half taking what was latched (R223). -/
def Block.fltRead (b : Block) (blk off size : Nat) : Nat × Block :=
  let f := b.fltOf blk
  let st := f.status.toNat
  if off = 0xF000 ∧ size = 8 then (st, b)
  else if off = 0xF000 then
    (st % 2 ^ 32, b.setFlt blk { f with latch := some (BitVec.ofNat 32 (st / 2 ^ 32)) })
  else if off = 0xF004 then
    match f.latch with
    | some h => (h.toNat, b.setFlt blk { f with latch := none })
    | none => (st / 2 ^ 32, b)
  else if off < 0xF010 then (0, b)
  else if off < 0xF040 then (fld (b.capture blk) (off - 0xF010) size, b)
  else
    ((List.range 4).foldl (fun n j => n + b.reactShOf blk (off - 0xF040 + j) * 256 ^ j) 0, b)

/-- A write of the four masks at `off` of a block (R393): into the shadow. -/
def Block.reactWrite (b : Block) (blk off v : Nat) : Block :=
  (List.range 4).foldl (fun b j =>
    let src := off - 0xF040 + j
    if (sourceInfo blk src).isSome then
      { b with reactSh := Tbl.set (reactDefault blk src) b.reactSh (blk * 64 + src)
                 (bits v (8 * j + 4) (8 * j)) }
    else b) b

/-- A write of a fault register of a block. A lower half is held, and the whole register takes effect with
the upper half: with the lower half as it stands where none is held (R223, log 68). -/
def Block.fltWrite (b : Block) (blk off size addr v : Nat) : Block :=
  let f := b.fltOf blk
  if off = 0xF000 ∧ size = 8 then b.clearFlt blk (BitVec.ofNat 64 v)
  else if off = 0xF000 then b.setFlt blk { f with heldStatus := some (BitVec.ofNat 32 v) }
  else if off = 0xF004 then
    let low := (f.heldStatus.map (·.toNat)).getD (f.status.toNat % 2 ^ 32)
    (b.setFlt blk { f with heldStatus := none }).clearFlt blk (BitVec.ofNat 64 (low + v * 2 ^ 32))
  else if off = 0xF008 ∧ size = 8 then b.forceFault blk v
  else if off = 0xF008 then b.setFlt blk { f with heldForce := some (BitVec.ofNat 32 v) }
  else if off = 0xF00C then
    (b.setFlt blk { f with heldForce := none }).forceFault blk
      ((f.heldForce.map (·.toNat)).getD 0 + v * 2 ^ 32)
  else if off < 0xF040 then b.raise blk 1 noUnit addr
  else
    let b := b.reactWrite blk off v
    if v &&& 0xE0E0E0E0 ≠ 0 then b.raise blk 1 noUnit addr else b

/-- `CLK_SEL_d` as read. -/
def Clk.sel (c : Clk) : Nat :=
  c.srcSh + c.cur * 2 ^ 8 + b2n c.switching * 2 ^ 10 + b2n c.hung * 2 ^ 11 + b2n c.gateSh * 2 ^ 12 +
    b2n c.gated * 2 ^ 13 + b2n c.gateBusy * 2 ^ 14

/-- `GOV_STATUS` as read. -/
def GovSt.status (g : GovSt) : Nat :=
  g.vdd % 1024 + b2n g.atLimit * 2 ^ 10 + b2n g.lowTempo * 2 ^ 11 + b2n g.avsFault * 2 ^ 12

/-- A register of CLKGEN as read; none where there is none. -/
def Block.clkRead (b : Block) (off : Nat) : Option Nat :=
  if off % 4 ≠ 0 then none
  else if off < 100 then some (b.clk (off / 4)).sel
  else if 0xA0 ≤ off ∧ off < 0xA0 + 100 then some (b2n (b.clk ((off - 0xA0) / 4)).held * 2 ^ 16)
  else if 0x140 ≤ off ∧ off < 0x140 + 100 then
    let c := b.clk ((off - 0x140) / 4)
    some (c.edges + b2n c.stopped * 2 ^ 24)
  else if 0x400 ≤ off ∧ off < 0x410 then some (nth 0 b.gov.tempo ((off - 0x400) / 4))
  else if off = 0x414 then some b.gov.status
  else if off = 0x410 ∨ off = 0x420 ∨ off = 0x430 then some (b.spShadow (clkgenBase + off))
  else none

/-- A write of `CLK_SEL_d`: the shadows of `SRC` and `GATE`, and `GATE_BUSY` cleared. -/
def Block.clkSelWrite (b : Block) (d v : Nat) : Block :=
  let c := b.clk d
  let bad := badBits v c.sel (mask [(11, 8), (13, 13)]) (mask [(7, 2), (31, 15)])
  let b := b.setClk d { c with srcSh := v % 4, gateSh := bit v 12, gateBusy := c.gateBusy && !bit v 14 }
  if bad then b.clkgenBad (clkSelAt d) else b

/-- A write of `CLK_FORCE_d`: a hold, the source forced, and the release, in this order. -/
def Block.clkForceWrite (b : Block) (d v : Nat) : Block :=
  let bad := badBits v (b2n (b.clk d).held * 2 ^ 16) (mask [(16, 16)])
    (mask [(7, 2), (15, 11), (31, 17)])
  let b := if bit v 8 then b.holdSet d else b
  let b := if bit v 10 then b.clkGo d (v % 4) else b
  let b := if bit v 9 then b.holdClr d else b
  if bad then b.clkgenBad (clkForceAt d) else b

/-- A write of a register with a shadow of its own; `reserved` bits are dropped (R225). -/
def Block.shadowWrite (b : Block) (addr v reserved : Nat) : Block :=
  let b := b.setSpShadow addr (v - (v &&& reserved))
  if v &&& reserved ≠ 0 then b.clkgenBad addr else b

/-- A write of a register of CLKGEN that exists. -/
def Block.clkWrite (b : Block) (off v : Nat) : Block :=
  let addr := clkgenBase + off
  if off < 100 then b.clkSelWrite (off / 4) v
  else if 0xA0 ≤ off ∧ off < 0xA0 + 100 then b.clkForceWrite ((off - 0xA0) / 4) v
  else if off = 0x410 then b.shadowWrite addr v (mask [(15, 12), (30, 26)])
  else if off = 0x420 then b.shadowWrite addr v (mask [(31, 14)])
  else if off = 0x430 then b.shadowWrite addr v (mask [(30, 19)])
  else if off = 0x414 then
    let bad := badBits v b.gov.status (mask [(11, 0)]) (mask [(31, 13)])
    let b := { b with gov := { b.gov with avsFault := b.gov.avsFault && !bit v 12 } }
    if bad then b.clkgenBad addr else b
  else b.clkgenBad addr

/-- The bits of a masked register of `w` bits (R229). -/
def maskedBits (w old v : Nat) : Nat :=
  let m := v / 2 ^ 16 % 2 ^ w
  (old &&& (2 ^ w - 1 - m)) ||| (v % 2 ^ w &&& m)

/-- Record an access that a block cannot serve: in quench none is (R224). -/
def Block.spBad (b : Block) (blk addr : Nat) : Block :=
  if b.quench then b else b.raise blk 1 noUnit addr

/-- A location of the service processor's space that holds nothing (R224). -/
def Block.spReserved (b : Block) (blk addr : Nat) : Block :=
  (b.spBad blk addr).emit (.busError addr false)

/-- A register access to a gated block (R224). -/
def Block.spGated (b : Block) (blk addr : Nat) : Block :=
  (b.spBad blk addr).emit (.busError addr true)

/-- A write of the global block (R229, R241). -/
def Block.globalWrite (b : Block) (off v : Nat) : Block :=
  if off = 0x100 then b.updateSp v
  else if off = portMaskAt then
    b.setObj 0x3000 0 (maskedBits 16 b.portMask v)
  else if off = regionMaskAt ∨ off = clusterMaskAt then
    let w := if off = regionMaskAt then 4 else 10
    let tooBig := bits v 15 w != 0 || bits v 31 (16 + w) != 0
    let b := if tooBig then b.raise blkSvc 1 noUnit off else b
    if off = regionMaskAt then { b with regionMask := maskedBits 4 b.regionMask v }
    else { b with clusterMask := maskedBits 10 b.clusterMask v }
  else b.raise blkSvc 1 noUnit off

/-- One block takes a write, where it has such a register; a reserved location drops it. -/
def Block.blockWrite (b : Block) (blk off size addr v : Nat) : Block :=
  if fltReg off size then b.fltWrite blk off size addr v
  else if blk = blkClkgen ∧ size = 4 ∧ (b.clkRead off).isSome then b.clkWrite off v
  else b.raise blk 1 noUnit addr

/-- A write on the service-processor bus (R224, R242). -/
def Block.spStore (b : Block) (addr size v : Nat) : Block :=
  if !b.spWrites then b
  else
    match b.spLoc addr with
    | .global off => if size = 4 then b.globalWrite off v else b.raise blkSvc 1 noUnit addr
    | .block blk off =>
      if b.blkGated blk then b.spGated blk addr else b.blockWrite blk off size addr v
    | .many blks off =>
      let sel := blks.filter fun k => !b.skipped k
      let live := sel.filter fun k => !b.blkGated k
      let b := live.foldl (fun b k => b.blockWrite k off size addr v) b
      let gated := sel.filter b.blkGated
      if gated.isEmpty then b
      else (gated.foldl (fun b k => b.spBad k addr) b).emit (.busError addr true)
    | .nowhere => b.raise blkSvc 1 noUnit addr

/-- A read of the global block; none where it holds nothing. -/
def Block.globalRead (b : Block) (off : Nat) : Option Nat :=
  if off = 0x100 then some 0
  else if off = portMaskAt then some b.portMask
  else if off = regionMaskAt then some b.regionMask
  else if off = clusterMaskAt then some b.clusterMask
  else none

/-- A read on the service-processor bus (R224, R242). -/
def Block.spRead (b : Block) (addr size : Nat) : Block :=
  if b.phase ≠ .running then b
  else
    match b.spLoc addr with
    | .global off =>
      match b.globalRead off with
      | some v => if size = 4 then b.emit (.regData .sp addr v) else b.spReserved blkSvc addr
      | none => b.spReserved blkSvc addr
    | .block blk off =>
      if b.blkGated blk then b.spGated blk addr
      else if fltReg off size then
        let (v, b) := b.fltRead blk off size
        b.emit (.regData .sp addr v)
      else
        match if blk = blkClkgen ∧ size = 4 then b.clkRead off else none with
        | some v => b.emit (.regData .sp addr v)
        | none => b.spReserved blk addr
    | .many _ _ => b.spReserved blkSvc addr
    | .nowhere => b.spReserved blkSvc addr

/-! ## Meanings -/

/-- UPDATE (R226 to R228). -/
def execUpdate (who : Accessor) (groups : BitVec 32) (s : State) :
    Host.Outcome State Fault Refusal :=
  runR (fun b =>
    match who with
    | .fn hl f => if b.live && b.fnUp (fidOf hl f) then b.updateFn (fidOf hl f) groups.toNat else b
    | .sp => if b.spWrites then b.updateSp groups.toNat else b
    | .cfg _ _ => b) s

/-- Q_WAKE (R233). -/
def execQWake (hl : HostId) (f : FnId) (value : BitVec 32) (s : State) :
    Host.Outcome State Fault Refusal :=
  runR (fun b =>
    if b.live && b.fnUp (fidOf hl f) then b.wakeQueue (fidOf hl f) value.toNat else b) s

/-- TG_REBIND (R237). -/
def execTgRebind (hl : HostId) (value : BitVec 32) (s : State) : Host.Outcome State Fault Refusal :=
  runR (fun b => if b.live && b.fnUp (fidOf hl 0) then b.rebind hl value.toNat else b) s

/-- MAILBOX_GO (R353): a write of `MBX_CTRL` with `GO` set. -/
def execMailboxGo (hl : HostId) (value : BitVec 32) (s : State) : Host.Outcome State Fault Refusal :=
  runR (fun b =>
    if b.live && b.fnUp (fidOf hl 0) && bit value.toNat 0 then b.mbxWrite hl value.toNat else b) s

/-- REGISTER_WRITE (R12, R223 to R229): also a write to a register with a command of its own. -/
def execRegisterWrite (who : Accessor) (addr : Nat) (size : Nat) (value : BitVec 64) (s : State) :
    Host.Outcome State Fault Refusal :=
  runR (fun b =>
    match who with
    | .fn hl f => b.hostStore (fidOf hl f) addr size (value.toNat % 256 ^ size)
    | .sp => b.spStore addr size (value.toNat % 256 ^ size)
    | .cfg hl f => b.cfgStore who (fidOf hl f) addr value.toNat) s

/-- RESERVED_READ (R223, R224): a read; one of a register that exists is answered with its value. -/
def execReservedRead (who : Accessor) (addr : Nat) (size : Nat) (s : State) :
    Host.Outcome State Fault Refusal :=
  runR (fun b =>
    match who with
    | .fn hl f => b.hostRead who (fidOf hl f) addr size
    | .sp => b.spRead addr size
    | .cfg hl f => b.cfgRead who (fidOf hl f) addr) s

/-- LOWER_HALF_READ (R223): a 32-bit read of the lower half of a 64-bit register. -/
def execLowerHalfRead (who : Accessor) (addr : Nat) (s : State) : Host.Outcome State Fault Refusal :=
  runR (fun b =>
    match who with
    | .fn hl f =>
      if b.isWide (fidOf hl f) addr then b.hostRead who (fidOf hl f) addr 4 else b
    | .sp => b.spRead addr 4
    | .cfg _ _ => b) s

end Sys2Proof.Machine
end

