-- ==== Sys2Proof/Machine/Dictionary.lean ====
section
/-! DEFINITION. Reading the dictionary (R346 to R348, R366 to R389): statuses (R364), rights (R347),
the values of scalar objects, and the bytes of DOMAIN objects. -/

namespace Sys2Proof.Machine

/-! ## Rights (R347) -/

/-- The digit of `rights` for principal `p`: 2 write and read, 1 read, 0 none. A P right on an object
of one host link is that of its own PF. -/
def ObjRow.right (r : ObjRow) (idx p : Nat) : Nat :=
  match p with
  | 0 => r.rights / 1000
  | 1 => r.rights / 100 % 10
  | 2 => r.rights % 10
  | _ => if r.perLink && idx - r.base != p - 4 then 0 else r.rights / 10 % 10

/-- The first failure of order 8 of R358, or OK. -/
def ObjRow.access (r : ObjRow) (idx p : Nat) (write : Bool) : Nat :=
  if write then
    if r.acc = .ro then dsNotWritable else if r.right idx p = 2 then stOk else dsNoRight
  else if r.acc = .wo then dsNotReadable
  else if 1 ≤ r.right idx p then stOk else dsNoRight

/-- Bytes of a scalar type on the wire (R346); 0 for the others. -/
def ObjTy.bytes : ObjTy → Nat
  | .bool => 1
  | .u8 => 1
  | .u16 => 2
  | .u32 => 4
  | .u64 => 8
  | .i16 => 2
  | .i32 => 4
  | .str => 0
  | .streamed _ _ => 0
  | .staged _ => 0
  | .domain => 0

/-- The value is a scalar. -/
def ObjTy.scalar (t : ObjTy) : Bool := t.bytes != 0

/-! ## Values that objects report -/

/-- `STATE` of R375. -/
def PortSt.code : PortSt → Nat
  | .disabled => 0
  | .training => 1
  | .exchange => 2
  | .active => 3
  | .retrain => 4
  | .failed => 5
  | .refused => 6
  | .oos => 7

/-- `STATE` of R380. -/
def MouldSt.code : MouldSt → Nat
  | .empty => 0
  | .loading => 1
  | .checking => 2
  | .valid => 3
  | .invalid => 4

/-- `HL_STATE` of R373; a present host link still in Detect reads as in reset (log 44). -/
def Block.hlState (b : Block) (n : Nat) : Nat :=
  if !b.present n then 0
  else
    match (b.link n).st with
    | .absent => 1
    | .inReset => 1
    | .training => 2
    | .dlActive => 3

/-- Mould indices that are VALID. -/
def Block.resident (b : Block) : List Mould :=
  (b.moulds.filter fun e => e.2.st == .valid).map (·.2)

/-- Sub-index `sub` of the state of mould index `i` (R380). -/
def Block.mouldReport (b : Block) (i sub : Nat) : Nat :=
  let m := b.mould i
  match sub with
  | 1 => m.st.code
  | 2 => m.checkCode
  | 3 => m.checkStep
  | 4 => m.hostLink
  | 5 => m.nextSeq.toNat
  | 6 => b2n (!m.pours.isEmpty)
  | _ => fld m.image 32 8

/-- Sub-index `sub` of 0x6820 (R380). -/
def Block.mouldTotals (b : Block) (sub : Nat) : Nat :=
  let ms := b.resident
  match sub with
  | 1 => ms.length
  | 2 => ms.foldl (fun n m => n + roundUp m.image.length 64) 0
  | 3 => b.armedCount fun _ => true
  | _ => b.slotTotal - ms.foldl (fun n m => n + m.pages) 0

/-- Sub-index `sub` of the state of port `p` (R375). -/
def Block.portReport (b : Block) (p sub : Nat) : Nat :=
  let x := b.port p
  match sub with
  | 1 => x.st.code
  | 2 => x.mode
  | 3 => x.neighbour
  | 4 => x.neighbourParts
  | 5 => x.neighbourDepth
  | 6 => x.pvcSettled
  | 7 => x.retiredLanes
  | 8 => x.lastRefuse
  | 9 => x.trainAttempts
  | _ => x.changeResult

/-- Sub-index `sub` of the state of host link `n` (R373). -/
def Block.linkReport (b : Block) (n sub : Nat) : Nat :=
  let l := b.link n
  match sub with
  | 1 => b.hlState n
  | 2 => l.width
  | 3 => l.rate
  | 4 => l.numVfs
  | _ => b2n l.ctxPantry.on + b2n l.regPantry.on * 2

/-- An identity object (R371). -/
def Block.identity (b : Block) (idx sub : Nat) : Nat :=
  let f := b.fuses
  if idx = 0x1001 then b.lifeCycle
  else if idx = 0x1040 then (if sub = 1 then b.resetCause else b.flash.bootCount)
  else
    match sub with
    | 1 => f.vendorId
    | 2 => 0x6416
    | 3 => 0xB0
    | 4 => f.enterpriseNo
    | 6 => f.macAddr
    | 7 => f.i3cPid
    | _ => fwVersion b.firmware

/-- A report of 0x7002 and 0x7012 (R381). -/
def Block.tempoReport (b : Block) (idx sub : Nat) : Nat :=
  if idx = 0x7002 then
    match sub with
    | 5 => b.gov.vdd
    | 6 => b2n b.gov.atLimit
    | 7 => b.gov.episodes
    | _ => nth 0 b.gov.tempo (sub - 1)
  else
    match sub with
    | 1 => b2n b.time.synced
    | 2 => b.time.stratum
    | 3 => b.time.parent.getD 0xFF
    | _ => (b.time.lastOffset % 2 ^ 32).toNat

/-- A security report (R386). -/
def Block.securityReport (b : Block) (idx sub : Nat) : Nat :=
  if idx = 0xA001 then b.lcResult
  else if idx = 0xA020 then
    (if sub = 1 then 32768 - b.fuses.leafUsed
     else if b.lower.made then 1024 - b.lower.used else 0)
  else if idx = 0xA031 then (if sub = 1 then b.fwState else b.fwStaged)
  else nth 0 b.flash.floors (sub - 1)

/-- `CARVE_ACTIVE` (R388): what lies in SRAM groups that are off is in no use, the free pool among them
(R448). -/
def Block.carveActive (b : Block) (e : Nat) : Nat :=
  if e = 18 then b.carveOf 18 - b.poolOff else b.carveOf e

/-- A report on the SRAM (R388). -/
def Block.sramReport (b : Block) (idx sub : Nat) : Nat :=
  if idx = 0xB001 then b.carveActive sub
  else
    match sub with
    | 1 => b.rowsUsed
    | 2 => b.banksRetired
    | 3 => b.degraded.length
    | _ => b.carveLost

/-- A measurement that comes from outside the block: die temperatures and the device's power. Each
read takes a free value (log 45). -/
def Block.measured (b : Block) (width : Nat) : Nat × Block := b.choose (2 ^ width)

/-- The value of a scalar object that is computed, where it is (R371 to R388); none for one that holds
what was written. -/
def Block.report (b : Block) (idx sub : Nat) : Option Nat :=
  if idx = 0x1000 ∨ idx = 0x1001 ∨ idx = 0x1040 then some (b.identity idx sub)
  else if idx = 0x2001 then some b.bifCode
  else if 0x2040 ≤ idx ∧ idx < 0x2044 then some (b.linkReport (idx - 0x2040) sub)
  else if 0x3200 ≤ idx ∧ idx < 0x3210 then some (b.portReport (idx - 0x3200) sub)
  else if idx = 0x5020 then some b.ownPartitions
  else if 0x6400 ≤ idx ∧ idx < 0x6800 then some (b.mouldReport (idx - 0x6400) sub)
  else if idx = 0x6820 then some (b.mouldTotals sub)
  else if idx = 0x7002 ∨ idx = 0x7012 then some (b.tempoReport idx sub)
  else if idx = 0x7040 ∧ sub = 1 then some (b.gov.ma * b.gov.vdd / 1000)
  else if idx = 0x7050 then some (b2n (b.domOn sub))
  else if idx = 0x8001 then some b.quenchCause
  else if idx = 0x8002 then some (if sub = 1 then b.defaulted else b.defaultedLast)
  else if idx = 0x8010 then some b.regions
  else if 0x8100 ≤ idx ∧ idx < 0x81F0 then some (b.fltOf (idx - 0x8100)).status.toNat
  else if idx = 0xA001 ∨ idx = 0xA020 ∨ idx = 0xA031 ∨ idx = 0xA040 then
    some (b.securityReport idx sub)
  else if idx = 0xB001 ∨ idx = 0xB002 then some (b.sramReport idx sub)
  else none

/-- A scalar as a READ returns it. -/
def Block.scalarRead (b : Block) (r : ObjRow) (idx sub : Nat) : Nat × Block :=
  if sub = 0 ∧ (objRows idx).all (fun x => x.sub != 0) then (r.dflt, b)
  else if idx = 0x7030 ∨ (idx = 0x7040 ∧ sub = 2) then b.measured (8 * r.ty.bytes)
  else (((b.report idx sub).getD (b.obj idx sub)), b)

/-! ## DOMAIN objects -/

/-- Byte `o` of a table of entries of `size` bytes. -/
def tableByte (t : Tbl Bytes) (size o : Nat) : Byte := nth 0 (Tbl.get [] t (o / size)) (o % size)

/-- Byte `o` of `FENCE_q` (R378). -/
def Block.fenceByte (b : Block) (q o : Nat) : Byte :=
  BitVec.ofNat 8 ((List.range 8).foldl (fun n k => n + b2n (b.member q (8 * o + k)) * 2 ^ k) 0)

/-- Byte `o` of `COUNTERS` as principal `p` sees it (R385). -/
def Block.counterByte (b : Block) (p o : Nat) : Byte :=
  let c := o / 8
  let r := b.ctrRange (p - 4)
  let seen := decide (p < 4) || (decide (r.1 ≤ c) && decide (c < r.1 + r.2))
  if seen then BitVec.ofNat 8 (b.counter c / 256 ^ (o % 8)) else 0

/-- Byte `o` of a streamed object. -/
def Block.streamByte (b : Block) (p idx o : Nat) : Byte :=
  if idx = 0x4000 then tableByte b.paths 128 o
  else if idx = 0x4001 then tableByte b.segments 16 o
  else if idx = 0x4002 then BitVec.ofNat 8 (b.sprueOf (o / 8) / 256 ^ (o % 8))
  else if idx < 0x6000 then b.fenceByte (idx - 0x5000) o
  else if idx = 0x8000 then nth 0 (b.capture (o / 32)) (o % 32)
  else if idx < 0x9000 then BitVec.ofNat 8 (b.reactShOf (idx - 0x8200) o)
  else b.counterByte p o

/-- The bytes of a string or of a DOMAIN that is not streamed: the serial number, a mould as loaded,
the certificate. -/
def Block.imageOf (b : Block) (idx : Nat) : Bytes :=
  if idx = 0x1000 then b.fuses.serial
  else if 0x6000 ≤ idx ∧ idx < 0x6400 then (b.mould (idx - 0x6000)).image
  else b.identityCert

/-- What a READ comes to: data and full length, or a status. -/
inductive ReadResult where
  | ok (data : Bytes) (full : Nat)
  | fail (status : Nat)
  deriving DecidableEq, Repr

/-- The bytes asked for of `full` bytes, given by `f`: all that remain, or `count`, or as many as the
transport carries (R350). An offset past the end does not fit (R358 order 9). -/
def readRange (full off count limit : Nat) (f : Nat → Nat → Bytes) : ReadResult :=
  if full < off then .fail dsLength
  else
    let want := if count = 0 then limit else min count limit
    .ok (f off (min want (full - off))) full

/-- `OFFSET` fits the object in a READ (R358 order 9); ATTEST_REPORT looks to its own. -/
def Block.readFits (b : Block) (t : ObjTy) (idx off : Nat) : Bool :=
  idx == 0xA011 ||
    (match t with
      | .streamed size _ => decide (off ≤ size)
      | .staged _ => decide (off ≤ (b.imageOf idx).length)
      | .domain => decide (off ≤ (b.imageOf idx).length)
      | _ => off == 0)

/-- READ of an object other than `ATTEST_REPORT` (R350). -/
def Block.readObj (b : Block) (p : Nat) (r : ObjRow) (idx sub off count limit : Nat) :
    ReadResult × Block :=
  match r.ty with
  | .streamed size _ =>
    (readRange size off count limit fun o n => (List.range n).map fun i => b.streamByte p idx (o + i), b)
  | .staged _ =>
    let im := b.imageOf idx
    (readRange im.length off count limit fun o n => slice im o n, b)
  | .domain =>
    let im := b.imageOf idx
    (readRange im.length off count limit fun o n => slice im o n, b)
  | .str =>
    let im := b.imageOf idx
    if off ≠ 0 then (.fail dsLength, b)
    else (readRange im.length 0 count limit fun o n => slice im o n, b)
  | t =>
    if off ≠ 0 then (.fail dsLength, b)
    else
      let (v, b) := b.scalarRead r idx sub
      (readRange t.bytes 0 count limit fun _ n => (toLe t.bytes v).take n, b)

end Sys2Proof.Machine
end

