-- ==== Sys2Proof/Machine/Settings.lean ====
section
/-! DEFINITION. Writing the dictionary's scalar objects (R366 to R389): what each refuses, and what
each does. Every check answers a status, OK where the write may go on. -/

namespace Sys2Proof.Machine

/-- OK where `c` holds, RANGE otherwise. -/
def inRange (c : Bool) : Nat := if c then stOk else dsRange

/-- The number lies in a range. -/
def isIn (v lo hi : Nat) : Bool := decide (lo ≤ v) && decide (v ≤ hi)

/-- The first status that is not OK. -/
def firstOf : List Nat → Nat
  | [] => stOk
  | s :: t => if s = stOk then firstOf t else s

/-! ## Storing -/

/-- Put a value into an object, and into flash where it is persistent (R348). -/
def Block.putObj (b : Block) (r : ObjRow) (idx sub v : Nat) : Block :=
  let b := b.setObj idx sub v
  if r.pers then
    { b with flash :=
        { b.flash with objects := Tbl.set none b.flash.objects (objKey idx sub) (some v) } }
  else b

/-! ## Host-link ranges (R214, R335, R412) -/

/-- The host link that a lock cell is assigned to. -/
def Block.cellOwner (b : Block) (c : Nat) : Option Nat := (List.range 4).find? fun n => b.cellOf n c

/-- The host link that a share counter belongs to. -/
def Block.ctrOwner (b : Block) (c : Nat) : Option Nat :=
  (List.range 4).find? fun n =>
    let r := b.ctrRange n
    b.present n && decide (r.1 ≤ c) && decide (c < r.1 + r.2)

/-- Cells and counters whose owner is not what it was in `old` start anew (R335, R412). -/
def Block.reown (b old : Block) : Block :=
  let b := ((List.range 240).filter fun c => b.cellOwner c != old.cellOwner c).foldl
    (fun b c => b.lockFree c) b
  ((List.range 4096).filter fun c => decide (1536 ≤ c) && b.ctrOwner c != old.ctrOwner c).foldl
    (fun b c => { b with ctrEvent := Tbl.set (0, 0, 0) b.ctrEvent c (0, 0, 0),
                         counters := Tbl.set 0 b.counters c 0 }) b

/-- The ranges `base` and `count` of host link `n` overlap another present host link's. -/
def Block.rangeClash (b : Block) (n : Nat) (range : Nat → Nat × Nat) : Bool :=
  b.present n && (List.range 4).any fun j =>
    j != n && b.present j && overlaps (range n).1 (range n).2 (range j).1 (range j).2

/-- The sum of a quota over the present host links. -/
def Block.quotaSum (b : Block) (k : Nat) : Nat :=
  (List.range 4).foldl (fun s n => if b.present n then s + b.quotaCount n k else s) 0

/-- The device total of a quota, no more than its carve use in service holds (R213, R215, R399). -/
def Block.quotaLimit (b : Block) (k : Nat) : Nat :=
  let uses := quotaUses.filterMap fun u => (useQuota u).map fun q => (u, q)
  match uses.find? fun e => e.2.1 == k with
  | some (u, (_, size)) => min (b.quotaTotal k) (b.carveOf u * 1024 / size)
  | none => b.quotaTotal k

/-- The base that a range check takes of host link `n`: AUTO means nothing while the host link is absent,
and then the count alone is checked, from the lowest place on (R366, R368). -/
def Block.baseOf (b : Block) (n v auto resolved lowest : Nat) : Nat :=
  if v = auto ∧ !b.present n then lowest else resolved

/-- A lock range that host link `n` takes, `b` holding it and `old` what stood before (R335). -/
def Block.lockRangeOk (b old : Block) (n : Nat) : Nat :=
  let lo := b.baseOf n (b.obj (0x2010 + n) 19) (quotaAuto 19) (b.quota n 19) 0
  let len := b.quota n 20
  let busy (c : Nat) : Bool := (b.lock c).held || !(b.lock c).waiters.isEmpty
  if 240 < lo + len || b.rangeClash n (fun j => (b.quota j 19, b.quota j 20)) ||
      (List.range 240).any (fun c => b.cellOwner c != old.cellOwner c && busy c) then stAccess
  else stOk

/-- What R374 limits alone: PDs, contexts and regions, and the poll budget by RANGE; matching
contexts by CAPACITY. -/
def quotaAlone (k v : Nat) : Nat :=
  match k with
  | 4 => inRange (isIn v 0 1048575)
  | 5 => inRange (isIn v 0 16777216)
  | 7 => inRange (isIn v 0 16777216)
  | 9 => if v ≤ 65536 then stOk else stCapacity
  | 17 => inRange (isIn v 1 200000000)
  | 18 => inRange (isIn v 0 1)
  | _ => stOk

/-- Quota `k` of host link `n` may be written (R214, R335, R374): `b` is the block as it would then
stand, `old` as it stands. An endpoint range past the last index is refused with CAPACITY. -/
def Block.quotaOk (b old : Block) (n k v : Nat) : Nat :=
  firstOf [
    quotaAlone k v,
    if [1, 3, 6, 8, 10, 11, 12, 13, 14, 15].contains k && b.quotaLimit k < b.quotaSum k then stCapacity
    else stOk,
    if (k = 2 ∨ k = 3) ∧ (16384 < b.baseOf n (b.obj (0x2010 + n) 2) (quotaAuto 2) (b.quota n 2) 0 + b.quota n 3 ∨
        b.rangeClash n (fun j => (b.quota j 2, b.quota j 3))) then stCapacity else stOk,
    if k = 19 ∨ k = 20 then b.lockRangeOk old n else stOk]

/-- A counter range of host link `n` may stand (R412). -/
def Block.ctrRangeOk (b : Block) (n v : Nat) : Nat :=
  let r := b.ctrRange n
  let lo := b.baseOf n (b.obj (0x9020 + n) 1) auto16 r.1 1536
  if v ≠ auto16 ∧ v % 32 ≠ 0 then dsRange
  else if lo < 1536 ∨ 4095 < lo ∨ 4096 < lo + r.2 then dsRange
  else if b.rangeClash n b.ctrRange then stCapacity
  else stOk

/-- The code that a `BIF_OVERRIDE` of `v` brings into force (R201). -/
def Block.bifFor (b : Block) (v : Nat) : Nat := if v = 0xFF then b.bifStrap else v

/-- A bifurcation code under which the counter ranges of two present host links overlap is refused
(R412). -/
def Block.bifOk (b : Block) (v : Nat) : Nat :=
  let b := { b with bifCode := b.bifFor v }
  if (List.range 4).any fun n => b.rangeClash n b.ctrRange then stCapacity else stOk

/-- The pour and slot shares of the present host links fit (R298). -/
def Block.sharesOk (b : Block) : Nat :=
  let sum (f : Nat → Nat) : Nat :=
    (List.range 4).foldl (fun s n => if b.present n then s + f n else s) 0
  if sum b.pourShare ≤ 64 ∧ sum b.slotShare ≤ b.slotTotal then stOk else stCapacity

/-! ## Ranges of single objects -/

/-- R147, R173 and R198: sub-index `sub` of 0x2020+n and 0x2030+n. -/
def transportRange (idx sub v : Nat) : Nat :=
  if idx < 0x2030 then
    inRange (if sub = 1 then isIn v 1000 2000000000 else isIn v 1000 10000000)
  else
    inRange (match sub with
      | 1 => isIn v 1 256
      | 2 => isIn v 100 64000
      | 4 => isIn v 1 256
      | 5 => isIn v 0 16384
      | 6 => v == 0 || isIn v 1 1000000
      | 7 => isIn v 0 4096
      | 8 => isIn v 0 1048576 && v % 64 == 0
      | _ => true)

/-- R54, R94 and R506: sub-index `sub` of a port's settings. -/
def portRange (sub v : Nat) : Nat :=
  inRange (match sub with
    | 1 => isIn v 0 1
    | 2 => isIn v 0 0x1FF
    | 3 => isIn v 2 8
    | 4 => isIn v 0 1
    | 5 => isIn v 32 256 && v % 8 == 0
    | 6 => isIn v 1000 1000000
    | 7 => isIn v 1000 256000
    | 8 => isIn v 10000 1000000
    | 9 => isIn v 1000 1000000
    | 10 => bits v 30 18 == 0
    | 11 => isIn v 0 786432 && v % 256 == 0
    | _ => isIn v 0 2)

/-- R121: sub-index `sub` of 0x4010; `b` holds the new value. -/
def Block.routeRange (b : Block) (sub v : Nat) : Nat :=
  firstOf [
    inRange (match sub with
      | 1 => isIn v 256 32768
      | 2 => isIn v 1000 1000000
      | 3 => isIn v 1 127
      | 4 => isIn v 0 126
      | 5 => isIn v 10 100000
      | _ => isIn v 1000 1000000),
    inRange (decide (b.obj 0x4010 4 < b.obj 0x4010 3))]

/-- The objects of 0x7000 (R381, R433); `b` holds the new value. -/
def Block.clockRange (b : Block) (idx sub v : Nat) : Nat :=
  match idx with
  | 0x7000 => inRange (isIn v 1000 2600)
  | 0x7001 => inRange (isIn v 600 850)
  | 0x7010 =>
    inRange (match sub with
      | 1 => isIn v 0 1
      | 2 => (List.range 4).all fun i =>
          decide (v / 256 ^ i % 256 < 16) || v / 256 ^ i % 256 == 0xFF
      | 3 => isIn v 1 1024
      | _ => v % 10 ^ 9 == 0)
  | 0x7011 => inRange (decide (-10000 ≤ signed 32 v) && decide (signed 32 v ≤ 10000))
  | 0x7020 => inRange (clkoutOk v)
  | 0x7031 =>
    let t := signed 16 v
    inRange ((if sub = 1 then decide (60 ≤ t) && decide (t ≤ 105)
        else decide (105 ≤ t) && decide (t ≤ 120)) &&
      decide (signed 16 (b.obj 0x7031 1) < signed 16 (b.obj 0x7031 2)))
  | _ => stOk

/-- The elements of `CARVE` (R389); `b` holds the new value. -/
def Block.carveRange (b : Block) (sub v : Nat) : Nat :=
  let sum := (List.range 17).foldl (fun s k => s + b.obj 0xB000 (k + 1)) 0
  inRange ((match nth (0, none) carveRows (sub - 1) with
    | (d, none) => v == d
    | (_, some (lo, hi)) => isIn v lo hi && v % 64 == 0) && decide (sum ≤ sramKiB))

/-! ## Modes and lanes (R376) -/

/-- The first check of R376 that a `CHANGE_MODE` write of port `p` fails. Reserved bits do not form a
mode of R61. -/
def Block.changeModeOk (b : Block) (p v : Nat) : Nat :=
  let x := b.port p
  let target := v % 256
  let known := match rowOf target with
    | some row => v < 512 && bits target 7 6 == 0 && bit (b.portObj p 2) row &&
        (modeLanes target &&& x.retiredLanes) == 0
    | none => false
  if !known then dsRange else if x.st ≠ .active then dsState
  else if x.changeResult = 1 then dsBusy else stOk

/-! ## Power of a domain (R448) -/

/-- SRAM group `g` lies in the free pool, which is at the top of SRAM die 1, and holds no copy. -/
def Block.groupFree (b : Block) (g : Nat) : Bool :=
  decide ((48 - g) * 4096 ≤ b.carveOf 18) && !b.spareUsed g &&
    (List.range 33).all (fun k => (b.bank (bankKey g k)).spareRows == 4)

/-- SRAM groups of a die: 16 to 31 on die 0, 32 to 47 on die 1. -/
def dieGroups (d : Nat) : List Nat := (List.range 16).map (· + 16 * (d + 1))

/-- A `DOMAIN_POWER` write that R448 accepts. `fabricNet` says that the request came over
10BASE-T1S or I3C. -/
def Block.powerOk (b : Block) (fabricNet : Bool) (e v : Nat) : Nat :=
  if 1 < v then dsRange
  else if 81 ≤ e ∧ e < 129 then (if v = 1 ∨ b.groupFree (e - 81) then stOk else dsState)
  else if e = 137 ∨ e = 138 ∨ e = 140 ∨ e = 141 then (if v = 1 then stOk else dsState)
  else if e = elMnet then (if v = 1 ∨ !fabricNet then stOk else dsState)
  else if e = elDebug then stOk
  else if e = 147 ∨ e = 148 then
    (if v = 1 ∨ (dieGroups (e - 147)).all (fun g => (b.dom (elSram g)).st = .off) then stOk
     else dsState)
  else dsState

/-! ## The check of a write -/

/-- The ports of the port group (R369, R375). -/
def Block.portGroup (b : Block) : List Nat := bitList 16 b.portMask

/-- The ports a broadcast object stands for (R369). -/
def Block.broadcastPorts (b : Block) (group : Bool) : List Nat :=
  if group then b.portGroup else List.range 16

/-- Order 10 of R358 for a scalar object: the status of a write of `v`. `b'` is the block with the value
in place. -/
def Block.valueOk (b b' : Block) (fabricNet : Bool) (idx sub v : Nat) : Nat :=
  if idx = 0x1010 then
    firstOf [inRange (isIn v 0 (2 ^ 18 - 1)),
      if (List.range 16).all fun p => (b.port p).st == .disabled then stOk else dsState]
  else if idx = 0x1020 then (if sub = 2 then inRange (isIn v 2 254) else stOk)
  else if idx = 0x1030 then inRange (v == 1)
  else if idx = 0x2000 then firstOf [inRange (isIn v 0 3 || v == 0xFF), b.bifOk v]
  else if 0x2010 ≤ idx ∧ idx < 0x2014 then b'.quotaOk b (idx - 0x2010) sub v
  else if 0x2020 ≤ idx ∧ idx < 0x2034 then transportRange idx sub v
  else if 0x3100 ≤ idx ∧ idx < 0x3110 then portRange sub v
  else if idx = 0x3110 ∨ idx = 0x3111 then
    (if (b.broadcastPorts (idx == 0x3111)).isEmpty then dsRange else portRange sub v)
  else if 0x3300 ≤ idx ∧ idx < 0x3310 then
    (if sub = 1 then b.changeModeOk (idx - 0x3300) v else inRange (isIn v 0 15))
  else if idx = 0x4010 then b'.routeRange sub v
  else if idx = 0x6800 then
    match sub with
    | 3 => inRange (isIn v 100 1000000)
    | _ => firstOf [inRange (isIn v (if sub = 1 then 0 else 64) 2048),
        if b.resident.isEmpty then stOk else dsState, b'.sharesOk]
  else if 0x6810 ≤ idx ∧ idx < 0x6814 then
    (if (sub = 1 ∧ 64 < v ∧ v ≠ auto8) ∨ (sub = 2 ∧ b.slotTotal < v ∧ v ≠ auto16) then stCapacity
     else b'.sharesOk)
  else if 0x7000 ≤ idx ∧ idx < 0x7040 then b'.clockRange idx sub v
  else if idx = 0x7050 then b.powerOk fabricNet sub v
  else if idx = 0x8010 then
    firstOf [if v &&& b.regions = v then stOk else dsState, inRange (v != 0)]
  else if idx = 0x9010 then inRange (isIn v 1 1000000)
  else if 0x9020 ≤ idx ∧ idx < 0x9024 then b'.ctrRangeOk (idx - 0x9020) v
  else if idx = 0xB000 then b'.carveRange sub v
  else stOk

/-! ## What a write does -/

/-- The bifurcation code changes at once (R201): host links that go absent lose their power, those
that become present get theirs. -/
def Block.setBif (b : Block) (code : Nat) : Block :=
  let old := b
  let b := { b with bifCode := code }
  let b := (List.range 4).foldl (fun b n =>
    if old.present n && !b.present n then
      let b := (b.askOff (elPhy n) false).askOff (elHl n) false
      let b := b.modLink n fun l => { l with st := .absent, clkreqLow := false }
      b.modClk (16 + n) fun c =>
        { c with gateAsked := if c.gated || c.gateAsked.isSome then c.gateAsked else some b.now }
    else if b.present n && !old.present n then
      ((b.switchOn (elPhy n)).switchOn (elHl n)).modLink n fun l => { l with clkreqLow := true }
    else b) b
  (b.reown old).startLinks

/-- Every present host link is held in reset by its PERST_Hn_N (R201). -/
def Block.allInPerst (b : Block) : Bool :=
  (List.range 4).all fun n => !b.present n || !(b.link n).perstHigh

/-- A port, machine or neighbour setting of port `p` changed (R83). -/
def Block.retryRefused (b : Block) (p : Nat) : Block :=
  if (b.port p).st = .refused then b.enterTraining p else b

/-- Setting `sub` of port `p` has been written where it stood otherwise in `old` (R83, R375): `ENABLE`
acts at once. -/
def Block.portWritten (b old : Block) (p sub : Nat) : Block :=
  if b.portObj p sub = old.portObj p sub then b
  else if sub ≠ 1 then b.retryRefused p
  else if b.portObj p 1 = 1 then
    (if (b.port p).st = .disabled ∧ b.lifeCycle ≠ 3 then (b.powerPort p).startPorts else b)
  else
    (b.disablePort p).modClk p fun c =>
      { c with gateAsked := if c.gated || c.gateAsked.isSome then c.gateAsked else some b.now }

/-- The `GOV_CTRL` shadow follows an object of group 24, and the group is strobed (R367). -/
def Block.govWritten (b : Block) (idx v : Nat) : Block :=
  let b := match lookup govCtrlAt b.spSh with
    | none => b
    | some w =>
      b.setSpShadow govCtrlAt (if idx = 0x7000 then setBits w 11 0 v else setBits w 25 16 v)
  b.strobeClocks

/-- The effect of a write of 0x7000 to 0x7031, the value in place; the objects strobe their group (R367). -/
def Block.clockWritten (b old : Block) (idx sub v : Nat) : Block :=
  match idx with
  | 0x7000 => b.govWritten idx v
  | 0x7001 => b.govWritten idx v
  | 0x7010 =>
    (if sub = 1 then b.takeRoot
     else if sub = 4 then b.modTime fun t => { t with nextSecond := some v }
     else b).strobeClocks
  | 0x7011 => b.strobeClocks
  | 0x7031 => b.strobeClocks
  | 0x7020 => (({ b with spSh := erase1 clkoutAt b.spSh } : Block).clkoutSwitch (old.obj 0x7020 0)).strobeClocks
  | _ => b

/-- A new window length waits for its first boundary (R411). -/
def Block.windowWritten (b : Block) (v : Nat) : Block :=
  { b with bwNext := some v, bwEnd := (b.ftime / (v * 1000) + 1) * (v * 1000) }

/-- The effect of a write of a scalar object, the value in place where the object holds one; `old` is
the block before. -/
def Block.objWritten (b old : Block) (idx sub v : Nat) : Block :=
  if idx = 0x1020 then { b with plcaDue := true }
  else if idx = 0x1030 then { b with rstAsked := true }
  else if idx = 0x2000 then
    (if b.allInPerst then b.setBif (b.bifFor v) else b)
  else if 0x2010 ≤ idx ∧ idx < 0x2014 then b.reown old
  else if idx = 0x3001 then
    (if v = old.obj 0x3001 0 then b else (List.range 16).foldl (fun b p => b.retryRefused p) b)
  else if 0x3100 ≤ idx ∧ idx < 0x3110 then b.portWritten old (idx - 0x3100) sub
  else if 0x3300 ≤ idx ∧ idx < 0x3310 then
    let p := idx - 0x3300
    if sub = 1 then b.changeMode p (v % 256) (bit v 8)
    else b.modPort p fun x => { x with retiredLanes := x.retiredLanes - (x.retiredLanes &&& v) }
  else if idx = 0x4010 then
    (List.range 256).foldl (fun b k => b.throttle (k / 16) (k % 16)) b
  else if 0x7000 ≤ idx ∧ idx < 0x7032 then b.clockWritten old idx sub v
  else if idx = 0x8010 then
    (bitList 4 (b.regions - v)).foldl (fun b r => b.retireRegion r) b
  else if 0x8100 ≤ idx ∧ idx < 0x81F0 then b.clearFlt (idx - 0x8100) (BitVec.ofNat 64 v)
  else if 0x8300 ≤ idx then
    (if idx < 0x83F0 then b.forceFault (idx - 0x8300) v
     else if idx = 0x9010 then b.windowWritten v
     else if 0x9020 ≤ idx ∧ idx < 0x9024 then b.reown old
     else b)
  else b

/-- An object whose write is an action and leaves no value of its own. -/
def actionObj (idx sub : Nat) : Bool :=
  idx == 0x1030 || (decide (0x3110 ≤ idx) && decide (idx < 0x3112)) ||
    (decide (0x3300 ≤ idx) && decide (idx < 0x3310)) || (idx == 0x7010 && sub == 4) ||
    idx == 0x7050 || idx == 0x8010 || (decide (0x8100 ≤ idx) && decide (idx < 0x81F0)) ||
    (decide (0x8300 ≤ idx) && decide (idx < 0x83F0))

/-- A broadcast of setting `sub` to its ports: the values of all of them, then what each does (R369). -/
def Block.broadcast (b : Block) (group : Bool) (sub v : Nat) : Block :=
  let ps := b.broadcastPorts group
  let row := nth (ObjTy.u8, 0) portCfgRows (sub - 1)
  let r (p : Nat) : ObjRow :=
    { base := 0x3100 + p, count := 1, sub := sub, ty := row.1, acc := .rw, rights := 2102,
      dflt := row.2, pers := true }
  let b' := ps.foldl (fun b p => b.putObj (r p) (0x3100 + p) sub v) b
  ps.foldl (fun b' p => b'.portWritten b p sub) b'

/-- The value is put in place and acts; `old` is the block before. -/
def Block.writeValue (b old : Block) (r : ObjRow) (idx sub v : Nat) : Block :=
  (if actionObj idx sub then b else b.putObj r idx sub v).objWritten old idx sub v

/-- The write goes to flash (R348). -/
def storesObj (r : ObjRow) (idx sub : Nat) : Bool := r.pers && !actionObj idx sub

/-- Order 10 has passed a write to several ports: their copies are stored together, and where that fails
nothing changes (R364, R369). -/
def Block.storeBroadcast (b : Block) (group : Bool) (sub v : Nat) : Nat × Block :=
  match b.storeAll ((b.broadcastPorts group).map fun p => objKey (0x3100 + p) sub) with
  | (false, b) => (dsFlash, b)
  | (true, b) => (stOk, b.broadcast group sub v)

/-- A WRITE of a scalar object whose length fits: its status, and the block. A domain that is switched
off answers later, under R447; where the flash store fails, the old value stays in force (R364). -/
def Block.writeScalar (b : Block) (fabricNet : Bool) (r : ObjRow) (idx sub v : Nat) : Nat × Block :=
  let b' := if actionObj idx sub then b else b.setObj idx sub v
  let st := if r.ty = .bool ∧ 1 < v then dsRange else b.valueOk b' fabricNet idx sub v
  if st ≠ stOk then (st, b)
  else if idx = 0x7050 then
    (stOk, if v = 1 then b.switchOn sub else b.askOff sub true)
  else if idx = 0x3110 ∨ idx = 0x3111 then b.storeBroadcast (idx == 0x3111) sub v
  else if storesObj r idx sub then
    match b.storeFlash (objKey idx sub) with
    | (false, b) => (dsFlash, b)
    | (true, b) => (stOk, b.writeValue b r idx sub v)
  else (stOk, b.writeValue b r idx sub v)

end Sys2Proof.Machine
end

