-- ==== Sys2Proof/Machine/Tables.lean ====
section
/-! DEFINITION. Streamed writes of the dictionary's tables (R361): path book, detours, sprue entries,
fences, reaction masks; FENCE_RANGE (R379) and COUNTER_CLEAR (R385, R407). -/

namespace Sys2Proof.Machine

/-! ## Fences (R120, R378, R379) -/

/-- Set the bit of node `node` in partition `q`, and its stored copy. -/
def Block.setMember (b : Block) (q node : Nat) (v : Bool) : Block :=
  let d := b2n (q == 0)
  let k := q * 262144 + node
  { b with fences := Tbl.set d b.fences k (b2n v),
           flash := { b.flash with fences := Tbl.set d b.flash.fences k (b2n v),
                                   fenceStored := b.flash.fenceStored.insert q } }

/-- The functions that own an endpoint bound to partition `q` (R120, R171). -/
def Block.ownersIn (b : Block) (q : Nat) : List Nat :=
  b.functions.filter fun fid => b.eps.any fun e =>
    e.2.live && e.2.fid == fid && e.2.partition == q

/-- This node's bit of partition `q` has changed (R120, R293): each function with an endpoint in it is
told, and a cleared bit breaks the pours of the partition. -/
def Block.partitionChanged (b : Block) (q : Nat) : Block :=
  let on := b.member q b.nodeId
  let b := (b.ownersIn q).foldl (fun b fid => b.event fid 7 (toLe 1 q ++ toLe 1 (b2n on))) b
  if on then b
  else
    let mine := b.moulds.flatMap fun e =>
      if e.2.st = .valid ∧ e.2.partition = q then e.2.pours.map fun p => (e.1, p) else []
    mine.foldl (fun b x => b.breakHere x.1 x.2 1 0) b

/-- What follows a change of fences that stood otherwise in `old`, in ascending order. -/
def Block.fencesChanged (b old : Block) : Block :=
  (List.range 16).foldl (fun b q =>
    if b.member q b.nodeId != old.member q b.nodeId then b.partitionChanged q else b) b

/-- Entry `j` of `FENCE_q` is replaced (R378). -/
def Block.writeFence (b : Block) (q j w : Nat) : Block :=
  (((List.range 64).foldl (fun b' k => b'.setMember q (64 * j + k) (bit w k)) b).rewritten 17
    (tableEntry 2 (4096 * q + j))).fencesChanged b

/-- What R379 refuses of `FENCE_RANGE`. -/
def fenceRangeOk (im : Bytes) : Bool :=
  fld im 0 2 != 0 && fld im 2 2 ≤ 1 && fld im 8 4 != 0 && decide (fld im 4 4 + fld im 8 4 ≤ 262144)

/-- The 64-bit words of a bitmap that `n` bits from `first` on reach. -/
def wordsOf (first n : Nat) : List Nat :=
  (List.range (n / 64 + 2)).filterMap fun i =>
    if 64 * (first / 64 + i) < first + n then some (first / 64 + i) else none

/-- `FENCE_RANGE` (R379). -/
def Block.fenceRange (b : Block) (im : Bytes) : Nat × Block :=
  if !fenceRangeOk im then (dsRange, b)
  else
    let v := bit (fld im 2 1) 0
    let b' := (bitList 16 (fld im 0 2)).foldl (fun b q =>
      (wordsOf (fld im 4 4) (fld im 8 4)).foldl (fun b j => b.rewritten 17 (tableEntry 2 (4096 * q + j)))
        ((List.range (fld im 8 4)).foldl (fun b k => b.setMember q (fld im 4 4 + k) v) b)) b
    match b'.storeFlash (objKey 0x5010 0) with
    | (true, b') => (stOk, b'.fencesChanged b)
    | (false, f) => (dsFlash, { b with flash := { b.flash with failNext := f.flash.failNext },
                                       fresh := f.fresh })

/-! ## Counters -/

/-- `COUNTER_CLEAR` (R385, R407). -/
def Block.counterClear (b : Block) (im : Bytes) : Nat × Block :=
  let first := fld im 0 2
  let n := fld im 2 2
  if 4096 < first + n then (dsRange, b)
  else
    (stOk, { b with counters := Tbl.drop (fun c => decide (first ≤ c) && decide (c < first + n))
                      b.counters })

/-! ## Tables -/

/-- A running pour names the tree (R26, R113). -/
def Block.treeInPour (b : Block) (tree : Nat) : Bool :=
  b.moulds.any fun e => !e.2.pours.isEmpty && e.2.trees.contains tree

/-- A sprue entry is replaced: the tree's sequence starts again at 0, and nothing closed counts as late any
more (R115, R116). -/
def Block.writeSprue (b : Block) (tree w : Nat) : Block :=
  ({ b with sprue := Tbl.set 0 b.sprue tree w, treeSeq := Tbl.set 0 b.treeSeq tree 0,
            closedReports := b.closedReports.filter fun e => !(e.1 == tree) } : Block).rewritten 17
    (tableEntry 0 tree)

/-- Mask `e` of block `blk` is replaced in its shadow and in flash (R348, R367). -/
def Block.writeMask (b : Block) (blk e v : Nat) : Block :=
  { b with
    reactSh := Tbl.set (reactDefault blk e) b.reactSh (blk * 64 + e) v,
    flash := { b.flash with
      react := Tbl.set (reactDefault blk e) b.flash.react (blk * 64 + e) v,
      reactStored := b.flash.reactStored.insert blk } }

/-- One entry of a streamed object is checked and replaced whole (R97, R106, R113, R361, R384). -/
def Block.writeEntry (b : Block) (idx e : Nat) (im : Bytes) : Nat × Block :=
  if idx = 0x4000 then
    if pathEntryOk im then
      (stOk, ({ b with paths := Tbl.set [] b.paths e (if allZero im then [] else im) } : Block).rewritten 1 e)
    else (stMalformed, b)
  else if idx = 0x4001 then
    if segOk im (e % 16) then
      (stOk, ({ b with segments := Tbl.set [] b.segments e (if allZero im then [] else im) } : Block
        ).rewritten 17 (tableEntry 1 e))
    else (stMalformed, b)
  else if idx = 0x4002 then
    let w := leNat im
    if !sprueOk w then (stMalformed, b)
    else if b.treeInPour e then (dsBusy, b)
    else (stOk, b.writeSprue e w)
  else if idx < 0x6000 then
    match b.storeFlash (objKey idx 0) with
    | (false, b) => (dsFlash, b)
    | (true, b) => (stOk, b.writeFence (idx - 0x5000) e (leNat im))
  else
    let blk := idx - 0x8200
    let v := leNat im
    if 32 ≤ v then (dsRange, b)
    else if (sourceInfo blk e).isNone then (stOk, b)
    else
      match b.storeFlash (objKey idx 0) with
      | (false, b) => (dsFlash, b)
      | (true, b) => (stOk, b.writeMask blk e v)

/-- The entries of `data` from entry `e` on, in order, up to the first that is refused (R361): its
status, the entries applied, and the block. -/
def Block.writeEntries (b : Block) (idx size : Nat) : Nat → Nat → Bytes → Nat × Nat × Block
  | 0, _, _ => (stOk, 0, b)
  | n + 1, e, data =>
    match b.writeEntry idx e (slice data 0 size) with
    | (0, b') =>
      let (st, k, b') := Block.writeEntries b' idx size n (e + 1) (data.drop size)
      (st, k + 1, b')
    | (st, b') => (st, 0, b')

/-- The masks of block `blk` from entry `e` on. -/
def Block.writeMasks (b : Block) (blk : Nat) : Nat → Bytes → Block
  | _, [] => b
  | e, v :: t =>
    Block.writeMasks (if (sourceInfo blk e).isNone then b else b.writeMask blk e v.toNat) blk (e + 1) t

/-- A streamed WRITE of the FLT_REACT broadcasts: every instance is checked first, and the copies are
stored together (R369). -/
def Block.reactBroadcast (b : Block) (group : Bool) (off : Nat) (data : Bytes) : Nat × Nat × Block :=
  let blks := (b.broadcastPorts group).map blkPort
  if blks.isEmpty ∨ data.any (fun v => decide (32 ≤ v.toNat)) then (dsRange, 0, b)
  else
    match b.storeAll (blks.map fun k => objKey (0x8200 + k) 0) with
    | (false, b) => (dsFlash, 0, b)
    | (true, b) => (stOk, data.length, blks.foldl (fun b k => b.writeMasks k off data) b)

/-- A WRITE of a streamed object whose range fits (R361): status, entries applied, and the block. A write
of reaction masks strobes their group (R367). -/
def Block.writeStream (b : Block) (idx entry off : Nat) (data : Bytes) : Nat × Nat × Block :=
  let (st, k, b) := if idx = 0x82F0 ∨ idx = 0x82F1 then b.reactBroadcast (idx == 0x82F1) off data
    else b.writeEntries idx entry (data.length / entry) (off / entry) data
  (st, k, if 0x8200 ≤ idx ∧ k ≠ 0 then b.strobeReact else b)

end Sys2Proof.Machine
end

