-- ==== Sys2Proof/Machine/Security.lean ====
section
/-! DEFINITION. The attestation objects (R472), life-cycle requests (R476 to R480) and firmware commits
(R465). -/

namespace Sys2Proof.Machine

/-! ## Attestation -/

/-- The nonce that principal `p` has written; in RETIRED, where none can be written, 32 zero bytes stand for
it (R475, R481; log 170). -/
def Block.nonceOf (b : Block) (p : Nat) : Option Bytes :=
  match (Tbl.get {} b.attest p).nonce with
  | some n => some n
  | none => if b.lifeCycle = 3 then some (zeros 32) else none

/-- READ of `ATTEST_REPORT` by principal `p` (R472). -/
def Block.readReport (b : Block) (p off count limit : Nat) : ReadResult × Block :=
  let a := Tbl.get {} b.attest p
  let give (r : Bytes) : ReadResult := readRange r.length off count limit fun o n => slice r o n
  if off = 0 then
    match b.nonceOf p with
    | none => (.fail dsState, b)
    | some nonce =>
      match b.attestReport p nonce with
      | (0, r, b) => (give r, { b with attest := Tbl.set {} b.attest p { a with report := some r } })
      | (st, _, b) => (.fail st, b)
  else
    match a.report with
    | none => (.fail dsState, b)
    | some r => (give r, b)

/-- `ATTEST_NONCE` is written (R472). -/
def Block.writeNonce (b : Block) (p : Nat) (nonce : Bytes) : Block :=
  { b with attest := Tbl.set {} b.attest p { Tbl.get {} b.attest p with nonce := some nonce } }

/-! ## Life-cycle requests -/

/-- `EXTRA_LEN` of a request (R477). -/
def lcExtra (req : Bytes) : Nat := fld req 172 4
/-- `OP` of a request. -/
def lcOp (req : Bytes) : Nat := fld req 4 1
/-- `SIGNER_PUB` of a request. -/
def lcSigner (req : Bytes) : Bytes := slice req 112 60

/-- Check 1 of R478. -/
def lcFormed (req : Bytes) : Bool :=
  let op := lcOp req
  decide (176 ≤ req.length) && fld req 0 4 == 0x434C5856 && decide (1 ≤ op) && decide (op ≤ 5) &&
  allZero (slice req 5 3) && decide (fld req 12 4 < 4) && (op == 2 || fld req 12 4 == 0) &&
  (op == 1 || op == 2 || allZero (slice req 48 32)) && (op == 1 || allZero (slice req 80 32)) &&
  (op == 1 || lcExtra req == 0) && decide (176 + lcExtra req ≤ req.length)

/-- `OP` is allowed from state `st` (R476). -/
def lcFrom (op st : Nat) : Bool :=
  match op with
  | 1 => st == 0
  | 2 => st == 1
  | 3 => st == 2
  | _ => st == 1 || st == 2

/-- Check 2 of R478. -/
def Fuses.lcTimely (f : Fuses) (req : Bytes) : Bool :=
  lcFrom (lcOp req) f.state && fld req 8 4 == f.epoch &&
    (slice req 16 32 == sha256 f.identityPub || (lcOp req == 1 && allZero (slice req 16 32)))

/-- Check 3 of R478. -/
def Fuses.lcSignerOk (f : Fuses) (req : Bytes) : Bool :=
  let pub := lcSigner req
  let owner := sha256 pub == slice f.owner.keyHash 0 32
  match lcOp req with
  | 1 => f.rootTrusted pub
  | 2 => true
  | 3 => owner
  | 4 => if f.state = 1 then f.rootTrusted pub else owner
  | _ => f.rootTrusted pub

/-- Check 4 of R478. -/
def Fuses.lcSigned (f : Fuses) (req : Bytes) : Bool :=
  let n := 176 + lcExtra req
  hssVerify (lcSigner req) (req.take n) (req.drop n) &&
    (lcOp req != 1 || hssVerify (lcSigner req) (f.certBody (lcSigner req) (160 + lcExtra req))
      (slice req 176 (lcExtra req)))

/-- The next blank owner slot. -/
def Fuses.blankSlot (f : Fuses) : Option Nat :=
  (List.range 16).find? fun k => !(f.slot k).check && !(f.slot k).spoiled

/-- The checks of R478: the first failure's status, or OK. -/
def Block.lcCheck (b : Block) (req : Bytes) : Nat :=
  let f := b.fuses
  let op := lcOp req
  if !lcFormed req then stMalformed
  else if !f.lcTimely req then dsState
  else if !f.lcSignerOk req || !f.lcSigned req then stAccess
  else if !b.vddFuse then dsState
  else if (op = 2 ∧ (f.blankSlot.isNone ∨ 32 ≤ f.epoch)) ∨ (op = 3 ∧ 32 ≤ f.epoch) then stCapacity
  else stOk

/-- `MASK_A` and `MASK_B` (R477): `letter` is 0x41 or 0x42. -/
def Fuses.lcMask (f : Fuses) (letter : Byte) : Bytes :=
  hmac ((f.secret 0).getD []) ([0x4C, 0x43, 0x4D, letter] ++ toLe 4 f.epoch)

/-- An owner slot with every bit burned (R476 RETIRE). -/
def burnedSlot : OwnerSlot :=
  { keyHash := List.replicate 32 0xFF, secret := List.replicate 32 0xFF, policy := 2 ^ 32 - 1,
    check := true }

/-- The fuses that a request burns (R476, R477). -/
def Fuses.lcBurn (f : Fuses) (req : Bytes) : Fuses :=
  let a := xorBytes (slice req 48 32) (f.lcMask 0x41)
  match lcOp req with
  | 1 => { f with vendorSecret := a, transferSecret := xorBytes (slice req 80 32) (f.lcMask 0x42),
                  provisioned := true }
  | 2 =>
    let s : OwnerSlot :=
      { keyHash := sha256 (lcSigner req), secret := a, policy := fld req 12 4, check := true }
    { f with slots := Tbl.set {} f.slots (f.blankSlot.getD 0) s, epoch := f.epoch + 1 }
  | 3 => { f with epoch := f.epoch + 1 }
  | 4 => { f with retired := true, vendorSecret := List.replicate 32 0xFF,
                  transferSecret := List.replicate 32 0xFF,
                  slots := (List.range 16).map fun k => (k, burnedSlot) }
  | _ =>
    let other := if sha256 (lcSigner req) = slice f.vendorRoot0 0 32 then 1 else 0
    { f with rootRevoke := setBit f.rootRevoke other true }

/-- The principals whose secrets a change of state changes (R475). -/
def rekeyed (before after : Nat) : List Nat :=
  if before = after then [] else if before = 0 ∨ after = 3 then [0, 1, 2] else [0, 1]

/-- Principals whose secret changes restart their sequences and floors at 0 (R355). -/
def Block.resetSeqs (b : Block) (ps : List Nat) : Block :=
  { b with seqs := Tbl.drop (fun p => ps.contains p) b.seqs,
           flash := { b.flash with
             floors := b.flash.floors.mapIdx fun p n => if ps.contains p then 0 else n } }

/-- A request that has passed its checks is carried out (R363, R479). -/
def Block.lcApply (b : Block) (req : Bytes) : Block :=
  let op := lcOp req
  let f := b.fuses
  let b := { b with fuses := f.lcBurn req, lcResult := stOk }
  let b := if op = 1 then
      { b with flash := { b.flash with caPub := lcSigner req, caSig := slice req 176 (lcExtra req) } }
    else b
  if op = 5 then b
  else
    let b := b.abandon fun _ => true
    { b with lcReset := some (b.now + 100000000) }

/-- The fuses after a burning whose readback failed (R479): the slot of a TAKE is spoiled, and the state is
as it was. -/
def Fuses.lcSpoil (f : Fuses) (req : Bytes) : Fuses :=
  match lcOp req, f.blankSlot with
  | 2, some k => { f with slots := Tbl.set {} f.slots k { f.slot k with spoiled := true } }
  | _, _ => f

/-- A committed `LC_REQUEST` (R478, R479): its status and the block. While a change waits for its chip
reset, another one finds the new state. A readback that fails answers CAPACITY, and a power loss before the
epoch bit is burned leaves no one to answer. -/
def Block.lcCommit (b : Block) (req : Bytes) : Nat × Block :=
  let st := b.lcCheck req
  let (_, b) := b.fusePower
  match st with
  | 0 =>
    let fails := b.fuses.burnFails
    let (k, b) := b.choose 2
    let b := { b with fuses := { b.fuses with burnFails := bit k 0 } }
    let (cut, b) := b.powerCut
    if cut then (stCapacity, ({ b with fuses := b.fuses.lcSpoil req } : Block).railTrip .vddAon)
    else if fails then (stCapacity, { b with fuses := b.fuses.lcSpoil req, lcResult := stCapacity })
    else (stOk, b.lcApply req)
  | st => (st, { b with lcResult := st })

/-! ## Firmware -/

/-- A committed `FW_IMAGE` (R465, R454): its status and the block. Where flash does not take the image, the
slot stays as it was (R364, log 92); where power fails or a chip reset starts while it is written, it is left
invalid, and no one is left to answer. -/
def Block.fwCommit (b : Block) (im : Bytes) : Nat × Block :=
  let k := 1 - b.flash.running
  let put (b : Block) (s : FwSlot) : Block :=
    { b with flash := if k = 0 then { b.flash with slot0 := s } else { b.flash with slot1 := s } }
  if b.fuses.fwVerifies im then
    let (cut, b) := b.powerCut
    if cut then (dsFlash, (put b {}).railTrip .vddAon)
    else
    let (reset, b) := b.resetCut
    if reset ≠ 0 then (dsFlash, (put b {}).chipReset reset)
    else match b.storeFlash (objKey 0xA030 0) with
    | (false, b) => (dsFlash, b)
    | (true, b) => (stOk, { put b { image := im } with fwState := 2, fwStaged := fwVersion im })
  else (stAccess, { put b {} with fwState := 3 })

/-- In recovery mode an image that verifies is run once its commit has been answered (R454). -/
def Block.fwRun (b : Block) : Block :=
  if b.phase = .recovery then
    ({ b with flash := { b.flash with running := 1 - b.flash.running } } : Block).fullSequence
  else b

end Sys2Proof.Machine
end

