-- ==== Sys2Proof/Machine/Idp.lean ====
section
/-! DEFINITION. The Ilteore Dictionary Protocol (R349 to R365): the checks of R358, sequence numbers
(R356, R357), execution, transfers (R362, R363), replies; and the management network (R351, R352). -/

namespace Sys2Proof.Machine

/-- The largest `LENGTH` of a transport (R351 to R353). -/
def IdpSource.limit : IdpSource → Nat
  | .t1s _ => 1024
  | .i3c _ => 1024
  | .mailbox _ => 4064

/-- The transport is one of the management network's buses. -/
def IdpSource.bus : IdpSource → Bool
  | .t1s _ => true
  | .i3c _ => true
  | .mailbox _ => false

/-- The principals that a transport carries (R354). -/
def IdpSource.carries (s : IdpSource) (p : Nat) : Bool :=
  match s with
  | .t1s _ => p == 0 || p == 2
  | .i3c _ => p == 1 || p == 2
  | .mailbox hl => p == 4 + hl

/-- `MTYPE` is defined (R350). -/
def mtypeKnown (mt : Nat) : Bool :=
  [mtRead, mtWrite, mtInfo, mtSegOpen, mtSegData, mtSegCommit, mtSegAbort].contains mt

/-! ## Orders 1 to 6 of R358 -/

/-- Order 3: flags, `SEQ`, and the lengths. A frame of 10BASE-T1S may be padded (R351). An INFO names no
object (R350). -/
def IdpReq.formed (r : IdpReq) : Bool :=
  let need := 32 + r.length + (if r.auth then 16 else 0)
  let whole := match r.src with
    | .t1s _ => decide (need ≤ r.msg.length)
    | _ => decide (need = r.msg.length)
  (fld r.msg 2 1 == 0 || fld r.msg 2 1 == 2) && (r.auth || r.seq == 0) && whole &&
    decide (r.length ≤ r.src.limit) &&
    (r.mtype != mtInfo || (r.index == 0 && r.sub == 0 && r.offset == 0))

/-- Order 4: the transport carries the principal, and the state lets V in (R354, R475). -/
def Block.principalOk (b : Block) (r : IdpReq) : Bool :=
  r.src.carries r.principal &&
    !(r.principal == 2 && b.lifeCycle == 2 && !bit b.fuses.owner.policy 1)

/-- Order 5: `AUTH` where R354 asks for it, and `MAC` verifies. A RETIRED device answers no more than READ and
INFO (R475). -/
def Block.authOk (b : Block) (r : IdpReq) : Bool :=
  if r.auth then
    match b.keyOf r.principal with
    | some k => r.mac == idpMac k (r.msg.take (32 + r.length))
    | none => false
  else (decide (4 ≤ r.principal) && b.lifeCycle != 3) || r.mtype == mtRead || r.mtype == mtInfo

/-- The first failure of orders 1 to 5, or OK. -/
def Block.admission (b : Block) (r : IdpReq) : Nat :=
  if fld r.msg 0 1 ≠ 1 then dsVersion
  else if !mtypeKnown r.mtype then dsMtype
  else if !r.formed then stMalformed
  else if !b.principalOk r then dsNoRight
  else if !b.authOk r then dsAuth
  else stOk

/-- What order 6 comes to (R356). -/
inductive SeqVerdict where
  | accept
  | resend (reply : Bytes)
  | replay
  deriving DecidableEq, Repr

/-- The verdict on an authenticated request. -/
def SeqState.judge (s : SeqState) (seq : Nat) (mac : Bytes) : SeqVerdict :=
  if seq ≠ 0 ∧ (s.high < seq ∨ (seq < s.high ∧ s.high ≤ seq + 64 ∧ seq ∉ s.seen)) then .accept
  else
    match s.replies.find? fun e => e.1 == seq && e.2.1 == mac with
    | some e => .resend e.2.2
    | none => .replay

/-- The state once `seq` is accepted (R356). -/
def SeqState.take (s : SeqState) (seq : Nat) : SeqState :=
  if s.high < seq then
    { s with high := seq, seen := (s.high :: s.seen).filter fun v => decide (seq ≤ v + 64) }
  else { s with seen := seq :: s.seen }

/-- Accept a sequence number, raising the stored floor first (R356, R357). -/
def Block.acceptSeq (b : Block) (p seq : Nat) : Block :=
  let floor := nth 0 b.flash.floors p
  let fl := if floor < seq then b.flash.floors.set p ((seq / 4096 + 1) * 4096) else b.flash.floors
  { b with seqs := Tbl.set {} b.seqs p ((b.seqOf p).take seq), flash := { b.flash with floors := fl } }

/-! ## Transfers (R362, R363) -/

/-- The transfer open on an object. -/
def Block.xferOn (b : Block) (idx sub : Nat) : Option Xfer :=
  b.xfers.find? fun x => x.index == idx && x.sub == sub

/-- The transfer of a handle that principal `p` opened on this object. -/
def Block.xferOf (b : Block) (r : IdpReq) : Option Xfer :=
  b.xfers.find? fun x => x.handle == r.xfer && x.principal == r.principal && x.index == r.index &&
    x.sub == r.sub

/-- A handle that no open transfer has (R362 leaves which). -/
def Block.newHandle (b : Block) : Nat × Block :=
  let (k, b) := b.choose 65535
  let free := ((List.range 5).map fun j => (k + j) % 65535 + 1).find? fun h =>
    b.xfers.all fun x => x.handle != h
  (free.getD 1, b)

/-- The exact length that a staged object takes, where there is one (R379, R385, R472). -/
def exactLen (idx : Nat) : Option Nat :=
  if idx = 0x5010 then some 12 else if idx = 0x9001 then some 4
  else if idx = 0xA010 then some 32 else none

/-- The length fits a staged object. -/
def stagedLenOk (idx max n : Nat) : Bool :=
  decide (n ≤ max) &&
    (match exactLen idx with
      | some k => n == k
      | none => true)

/-! ## Mould images (R275, R276) -/

/-- Limits of R275 on a PF that loads or unloads mould index `i`; `header` is what it shows of the
image. -/
def Block.mouldRights (b : Block) (p i : Nat) (header : Option Bytes) : Bool :=
  let m := b.mould i
  decide (p < 4) ||
    (b.quota (p - 4) 18 == 1 && (m.st == .empty || m.hostLink == p - 4) &&
      (match header with
        | some h => decide (64 ≤ h.length) && fld h 13 1 == p - 4
        | none => true))

/-- The status of a message that would change mould index `i` (R275, R276). -/
def Block.mouldOpen (b : Block) (p i : Nat) (header : Option Bytes) : Nat :=
  if !b.mouldRights p i header then stAccess
  else if !(b.mould i).pours.isEmpty then dsBusy
  else stOk

/-- A load of the index begins: it releases what the index held (R276). -/
def Block.beginLoad (b : Block) (i : Nat) (st : MouldSt) : Block :=
  (b.modMould i fun m =>
    { m with st := st, checkCode := 0, checkStep := 0, pages := 0, early := 0, held := [],
             broken := none, badSteps := [] }).rewritten 13 i

/-! ## Execution (R358 orders 7 to 10) -/

/-- What a request comes to. -/
inductive IdpResult where
  | done (status : Nat) (data : Bytes) (count : Nat) (xfer : Option Nat)
  /-- The reply waits under this key of `loadWait`. -/
  | wait (key : Nat)
  deriving DecidableEq, Repr

/-- A reply of a status alone. -/
def IdpResult.status (st : Nat) : IdpResult := .done st [] 0 none

/-- Order 9: `LENGTH`, `OFFSET` and `COUNT` fit the type (R349, R350). -/
def Block.fits (b : Block) (r : IdpReq) (t : ObjTy) : Bool :=
  let mt := r.mtype
  if mt = mtRead then r.length == 0 && b.readFits t r.index r.offset
  else if mt = mtWrite then
    r.count == 0 &&
    match t with
    | .streamed size entry =>
      r.offset % entry == 0 && r.length % entry == 0 && decide (r.offset + r.length ≤ size)
    | .staged max => r.offset == 0 && stagedLenOk r.index max r.length
    | t => r.offset == 0 && r.length == t.bytes
  else if mt = mtSegOpen then
    r.length == 0 && r.offset == 0 &&
    (match t with
      | .staged max => stagedLenOk r.index max r.count
      | _ => true)
  else r.count == 0 && (mt == mtSegData || (r.length == 0 && r.offset == 0))

/-- The device's phase lets the request through (R365, R454). -/
def Block.phaseAllows (b : Block) (r : IdpReq) : Bool :=
  let idx := r.index
  if r.quenched then r.mtype == mtRead || (r.mtype == mtWrite && idx == 0x1030)
  else if b.phase = .recovery then
    if r.mtype = mtRead then idx / 0x1000 == 1 || idx / 0x1000 == 0xA else idx == 0xA030
  else true

/-- A staged image other than a mould's takes effect (R360): its verdict. -/
def Block.stage (b : Block) (p idx : Nat) (im : Bytes) : Nat × Block :=
  if idx = 0x5010 then b.fenceRange im
  else if idx = 0x9001 then b.counterClear im
  else if idx = 0xA000 then b.lcCommit im
  else if idx = 0xA010 then (stOk, b.writeNonce p im)
  else b.fwCommit im

/-- A whole mould image is handed to its index (R276): an empty one unloads it, another is checked. -/
def Block.handMould (b : Block) (p i : Nat) (im : Bytes) : IdpResult × Block :=
  let st := b.mouldOpen p i (if im.isEmpty then none else some im)
  if st ≠ stOk then (.status st, b)
  else if im.isEmpty then (.status stOk, b.setMould i {})
  else (.wait i, (b.beginLoad i .checking).modMould i fun m => { m with image := im })

/-- A WRITE (R350, R361, R362). The reply of a domain that is switched off waits for its quiescence (R447),
that of a CHANGE_MODE for its PAUSE REQ to be sent (R376). -/
def Block.doWrite (b : Block) (r : IdpReq) (row : ObjRow) : IdpResult × Block :=
  let idx := r.index
  match row.ty with
  | .streamed _ entry =>
    let (st, k, b) := b.writeStream idx entry r.offset r.data
    (.done st [] k none, b)
  | .staged _ =>
    if (b.xferOn idx r.sub).isSome then (.status dsBusy, b)
    else if 0x6000 ≤ idx ∧ idx < 0x6400 then b.handMould r.principal (idx - 0x6000) r.data
    else
      let (st, b) := b.stage r.principal idx r.data
      (.status st, b)
  | _ =>
    let (st, b) := b.writeScalar r.src.bus row idx r.sub (leNat r.data)
    let d := b.dom r.sub
    if st = stOk ∧ idx = 0x7050 ∧ r.data = [0] ∧ (d.quietAsked.isSome ∨ d.want = some false) then
      (.wait (1024 + r.sub), b)
    else if st = stOk ∧ 0x3300 ≤ idx ∧ idx < 0x3310 ∧ r.sub = 1 ∧
        (b.port (idx - 0x3300)).pauseOwed.isSome then
      (.wait (pauseKey + (idx - 0x3300)), b)
    else (.status st, b)

/-- SEG_OPEN (R361, R362, R275). -/
def Block.doOpen (b : Block) (r : IdpReq) (row : ObjRow) : IdpResult × Block :=
  let idx := r.index
  match row.ty with
  | .staged max =>
    if (b.xferOn idx r.sub).isSome then (.status dsBusy, b)
    else if 4 ≤ b.xfers.length then (.status dsTooMany, b)
    else
      let i := idx - 0x6000
      let st := if 0x6000 ≤ idx ∧ idx < 0x6400 then
          (if 4 ≤ r.principal ∧ r.count < 64 then stAccess else b.mouldOpen r.principal i none)
        else stOk
      if st ≠ stOk then (.status st, b)
      else
        let (h, b) := b.newHandle
        let x : Xfer := { handle := h, index := idx, sub := r.sub, principal := r.principal,
                          length := r.count, bytes := [], lastAt := b.now }
        (.done stOk [] max (some h), { b with xfers := b.xfers ++ [x] })
  | _ => (.status dsState, b)

/-- The transfer `x` becomes `y`. -/
def Block.setXfer (b : Block) (x y : Xfer) : Block :=
  { b with xfers := b.xfers.map fun z => if z.handle = x.handle then y else z }

/-- A message for a transfer that is accepted at order 6 restarts its idle limit, whatever it comes to
(R363). -/
def Block.touchXfer (b : Block) (r : IdpReq) : Block :=
  if mtSegData ≤ r.mtype then
    match b.xferOf r with
    | some x => b.setXfer x { x with lastAt := b.now }
    | none => b
  else b

/-- SEG_DATA (R362, R275, R276). -/
def Block.doData (b : Block) (r : IdpReq) : IdpResult × Block :=
  match b.xferOf r with
  | none => (.status dsNoXfer, b)
  | some x =>
    let got := x.bytes.length
    let i := x.index - 0x6000
    let mould := decide (0x6000 ≤ x.index) && decide (x.index < 0x6400)
    let st := if r.offset ≠ got then dsSegment
      else if x.length < got + r.length then dsLength
      else if mould && got == 0 then b.mouldOpen r.principal i (some r.data)
      else stOk
    if st ≠ stOk then (.done st [] got none, b)
    else
      let y : Xfer := { x with bytes := x.bytes ++ r.data }
      let b := b.setXfer x y
      let last := y.bytes.length == x.length
      let b := if mould then
          (if got = 0 then b.beginLoad i (if last then .checking else .loading)
           else b.modMould i fun m => { m with st := if last then .checking else .loading })
        else b
      (.done stOk [] y.bytes.length none, b)

/-- SEG_COMMIT (R362). -/
def Block.doCommit (b : Block) (r : IdpReq) : IdpResult × Block :=
  match b.xferOf r with
  | none => (.status dsNoXfer, b)
  | some x =>
    if x.bytes.length ≠ x.length then (.status dsSegment, b)
    else
      let b' := { b with xfers := b.xfers.filter fun z => !(z.handle == x.handle) }
      if 0x6000 ≤ x.index ∧ x.index < 0x6400 then
        let i := x.index - 0x6000
        if x.length = 0 then b'.handMould r.principal i []
        else (.wait i, b'.modMould i fun m => { m with st := .checking, image := x.bytes })
      else
        let (st, b) := b'.stage r.principal x.index x.bytes
        (.done st [] x.length none, b)

/-- SEG_ABORT (R363). -/
def Block.doAbort (b : Block) (r : IdpReq) : IdpResult × Block :=
  match b.xferOf r with
  | none => (.status dsNoXfer, b)
  | some x => (.status stOk, b.abandon fun z => z.handle == x.handle)

/-- READ (R350, R472). -/
def Block.doRead (b : Block) (r : IdpReq) (row : ObjRow) : IdpResult × Block :=
  let (res, b) := if r.index = 0xA011 then
      b.readReport r.principal r.offset r.count r.src.limit
    else b.readObj r.principal row r.index r.sub r.offset r.count r.src.limit
  match res with
  | .ok data full => (.done stOk data full none, b)
  | .fail st => (.status st, b)

/-- The data of an INFO reply (R350). -/
def Block.infoData (b : Block) (r : IdpReq) : Bytes :=
  toLe 1 1 ++ toLe 1 b.lifeCycle ++ toLe 2 r.src.limit ++ zeros 4 ++ toLe 8 (b.seqOf r.principal).high

/-- Orders 7 to 10 of R358. -/
def Block.execute (b : Block) (r : IdpReq) : IdpResult × Block :=
  let mt := r.mtype
  let b := b.touchXfer r
  if mt = mtInfo then
    (if r.length = 0 ∧ r.count = 0 then (.done stOk (b.infoData r) 0 none, b)
     else (.status dsLength, b))
  else if objRows r.index = [] then (.status dsNoObject, b)
  else
    match objRow r.index r.sub with
    | none => (.status dsNoSubindex, b)
    | some row =>
      let st := row.access r.index r.principal (mt != mtRead)
      if st ≠ stOk then (.status st, b)
      else if !b.fits r row.ty then (.status dsLength, b)
      else if !b.phaseAllows r then (.status dsState, b)
      else if mt = mtRead then b.doRead r row
      else if mt = mtWrite then b.doWrite r row
      else if mt = mtSegOpen then b.doOpen r row
      else if mt = mtSegData then b.doData r
      else if mt = mtSegCommit then b.doCommit r
      else b.doAbort r

/-- What follows the reply to `r`, which was `st`: a change of state restarts sequences (R355), and in
recovery mode a firmware image that verifies is run (R454). -/
def Block.afterReply (b old : Block) (r : IdpReq) (st : Nat) : Block :=
  let b := b.resetSeqs (rekeyed old.lifeCycle b.lifeCycle)
  if r.index = 0xA030 ∧ st = stOk ∧ (r.mtype = mtWrite ∨ r.mtype = mtSegCommit) then b.fwRun else b

/-- Execute a request that is admitted, and answer it, where power has lasted and no chip reset has cut into it
(R465, R479): each start-up counts in `BOOT_COUNT` (R451). -/
def Block.perform (b : Block) (r : IdpReq) : Block :=
  let key := b.keyOf r.principal
  match b.execute r with
  | (.done st data count xfer, b') =>
    if b'.phase = .held ∨ b'.flash.bootCount ≠ b.flash.bootCount then b' else (b'.idpAnswer key r st data count xfer).afterReply b r st
  | (.wait k, b') => { b' with loadWait := b'.loadWait ++ [(k, r)] }

/-- A request is taken from the queue (R358). -/
def Block.runRequest (b : Block) (r : IdpReq) : Block :=
  let st := b.admission r
  let refuse (st : Nat) : Block := b.sendReply r.src (r.reply false st [] 0 none)
  if st ≠ stOk then refuse st
  else if !r.auth then b.perform r
  else
    match (b.seqOf r.principal).judge r.seq r.mac with
    | .accept => (b.acceptSeq r.principal r.seq).perform r
    | .resend msg => b.sendReply r.src msg
    | .replay => refuse dsReplay

/-- The request at the head is executed where it is of a type that `pick` picks, and no reply waits
(R359). -/
def Block.serveHead (b : Block) (pick : Nat → Bool) : Block :=
  if !b.serves || !b.loadWait.isEmpty then b
  else
    match b.idpQ with
    | [] => b
    | r :: t => if pick r.mtype then ({ b with idpQ := t } : Block).runRequest r else b

/-! ## The management network (R351, R352) -/

/-- Requests of a transport that wait. -/
def Block.waitingOn (b : Block) (same : IdpSource → Bool) : Nat :=
  (b.idpQ.filter fun r => same r.src).length

/-- Record a request, or discard and count it where 8 wait (R359). -/
def Block.queueReq (b : Block) (src : IdpSource) (same : IdpSource → Bool) (msg : Bytes) : Block :=
  if 8 ≤ b.waitingOn same then b.count 838 1
  else { b with idpQ := b.idpQ ++ [{ src := src, msg := msg, quenched := b.quench }] }

/-- The same transport as 10BASE-T1S. -/
def IdpSource.isT1s : IdpSource → Bool
  | .t1s _ => true
  | _ => false
/-- The same transport as I3C. -/
def IdpSource.isI3c : IdpSource → Bool
  | .i3c _ => true
  | _ => false

/-- A frame that the device accepts (R351). -/
def Block.acceptsFrame (b : Block) (f : T1sFrame) : Bool :=
  !f.vlan && f.etherType == 0x88B5 && slice f.payload 0 2 == [0x49, 0x44] &&
    (f.dst == b.fuses.macAddr || (f.dst == 2 ^ 48 - 1 && fld f.payload 3 1 == mtInfo))

/-- A request arrives (R351, R352, R359). An MCTP message names the enterprise number, and its type byte
carries no integrity check; a target without a dynamic address receives nothing. -/
def Block.arrive (b : Block) (a : IdpArrival) : Block :=
  if !b.serves || !b.mnetUp then b
  else
    match a with
    | .t1s f =>
      if b.acceptsFrame f then
        b.queueReq (.t1s f.src) IdpSource.isT1s (f.payload.drop 2)
      else b
    | .i3c eid ty body =>
      if ty = 0x7F ∧ fld body 0 4 = b.fuses.enterpriseNo ∧ 4 ≤ body.length ∧ b.i3cAddr.isSome then
        b.queueReq (.i3c eid) IdpSource.isI3c (body.drop 4)
      else b

/-- The answer to an MCTP control message (R352). How the answers are laid out is the DMTF's: command
code and completion code first. PRESUMED (log 48). -/
def Block.mctpAnswer (b : Block) (m : MctpControl) : Bytes × Block :=
  match m with
  | .setEndpointId e => (toLe 1 1 ++ zeros 2 ++ toLe 1 e ++ zeros 1, { b with mctpEid := e % 256 })
  | .getEndpointId => (toLe 1 2 ++ zeros 1 ++ toLe 1 b.mctpEid ++ zeros 2, b)
  | .getVersionSupport =>
    let (v, b) := b.choose (2 ^ 32)
    (toLe 1 4 ++ zeros 1 ++ toLe 1 1 ++ toLe 4 v, b)
  | .getMessageTypeSupport => (toLe 1 5 ++ zeros 1 ++ toLe 1 1 ++ toLe 1 0x7F, b)
  | .getVendorDefinedSupport =>
    (toLe 1 6 ++ zeros 1 ++ toLe 1 0xFF ++ toLe 1 1 ++ toLe 4 b.fuses.enterpriseNo, b)
  | .other c => (toLe 1 c ++ toLe 1 5, b)

/-! ## Meanings -/

/-- IDP_READ (R350): also a request of an undefined `MTYPE`, which order 2 refuses (log 47). -/
def execIdpRead (s : State) : Host.Outcome State Fault Refusal :=
  runR (fun b => b.serveHead fun mt => mt == mtRead || !mtypeKnown mt) s

/-- IDP_WRITE (R350). -/
def execIdpWrite (s : State) : Host.Outcome State Fault Refusal :=
  runR (fun b => b.serveHead fun mt => mt == mtWrite) s

/-- IDP_INFO (R350). -/
def execIdpInfo (s : State) : Host.Outcome State Fault Refusal :=
  runR (fun b => b.serveHead fun mt => mt == mtInfo) s

/-- SEG_OPEN (R362). -/
def execSegOpen (s : State) : Host.Outcome State Fault Refusal :=
  runR (fun b => b.serveHead fun mt => mt == mtSegOpen) s

/-- SEG_DATA (R362). -/
def execSegData (s : State) : Host.Outcome State Fault Refusal :=
  runR (fun b => b.serveHead fun mt => mt == mtSegData) s

/-- SEG_COMMIT (R362). -/
def execSegCommit (s : State) : Host.Outcome State Fault Refusal :=
  runR (fun b => b.serveHead fun mt => mt == mtSegCommit) s

/-- SEG_ABORT (R363). -/
def execSegAbort (s : State) : Host.Outcome State Fault Refusal :=
  runR (fun b => b.serveHead fun mt => mt == mtSegAbort) s

/-- A segment or commit of the transfer is recorded and will be accepted: it comes before the expiry
(R363). -/
def Block.segmentWaits (b : Block) (x : Xfer) : Bool :=
  b.idpQ.any fun r => (r.mtype == mtSegData || r.mtype == mtSegCommit) && r.xfer == x.handle &&
    r.principal == x.principal && r.index == x.index && r.sub == x.sub && b.admission r == stOk &&
    (!r.auth || decide ((b.seqOf r.principal).judge r.seq r.mac = .accept))

/-- XFER_IDLE_TIMEOUT (R363): 10 s without an accepted message. -/
def execXferIdleTimeout (handle : Nat) (s : State) : Host.Outcome State Fault Refusal :=
  runR (fun b =>
    if b.serves then
      b.abandon fun x => x.handle == handle && decide (x.lastAt + 10000000000 ≤ b.now) &&
        !b.segmentWaits x
    else b) s

/-- MOULD_CHECK_DONE (R276 to R278): the checks of an index whose image is committed end, and the
verdict is the reply. -/
def execMouldCheckDone (m : Fin 1024) (s : State) : Host.Outcome State Fault Refusal :=
  runR (fun b =>
    let x := b.mould m.val
    if b.serves && x.st == .checking && (b.xferOn (0x6000 + m.val) 0).isNone then
      let (st, b) := b.checkMould m.val
      b.answerWaiting m.val st x.image.length
    else b) s

/-- DOE_ATTEST_REQUEST (R473). -/
def execDoeAttestRequest (hl : HostId) (request : Bytes) (s : State) :
    Host.Outcome State Fault Refusal :=
  runR (fun b =>
    if b.serves && b.fnThere (fidOf hl 0) then
      let (msg, b) := b.doeAnswer hl request
      b.emit (.doeReply hl msg)
    else b) s

/-- The chip reset of a life-cycle change falls due 100 ms after the reply (R479); quench is not left by it
(R451). -/
def Block.lcResetDue (b : Block) : Block :=
  match b.lcReset with
  | some t => if t ≤ b.now ∧ !b.quench then b.chipReset 4 else b
  | none => b

/-- LIFE_CYCLE_RESET (R479). -/
def execLifeCycleReset (s : State) : Host.Outcome State Fault Refusal := runR (fun b => b.lcResetDue) s

/-- IDP_REQUEST_RECEIVED (R351, R352, R359). -/
def execIdpRequestReceived (arrival : IdpArrival) (s : State) : Host.Outcome State Fault Refusal :=
  run (fun b => b.arrive arrival) s

/-- MCTP_CONTROL_MESSAGE (R352). -/
def execMctpControlMessage (msg : MctpControl) (s : State) : Host.Outcome State Fault Refusal :=
  run (fun b =>
    if b.serves && b.mnetUp && b.i3cAddr.isSome then
      let (body, b) := b.mctpAnswer msg
      b.sendMnet [.i3cInterrupt, .mctpReply body]
    else b) s

/-- ENTDAA (R352): a target that has no dynamic address puts its provisional ID on the bus and takes one. -/
def execEntdaa (address : Fin 128) (s : State) : Host.Outcome State Fault Refusal :=
  run (fun b =>
    if b.serves && b.mnetUp && b.i3cAddr.isNone then
      ({ b with i3cAddr := some address.val } : Block).emit (.i3cProvisional b.fuses.i3cPid)
    else b) s

end Sys2Proof.Machine
end

