-- ==== Sys2Proof/Machine/Link.lean ====
section
/-! DEFINITION. The commands of the link layer and of fabric time (R60 to R94, R501, R502). -/

namespace Sys2Proof.Machine

/-- Flits of the partner reach the receiver of port `p`: its FEC has locked (R62, R83), its clock runs
(R425), and the device is not in quench (R404). -/
def Block.hears (b : Block) (p : Nat) : Bool :=
  let st := (b.port p).st
  !(b.quench || !b.domainRuns p || st == .disabled || st == .training || st == .oos)

/-- CORR_SYMBOLS of each lane counts the symbols that the FEC has corrected on it (R409, log 151). -/
def Block.countCorr (b : Block) (p : Nat) (corr : List Nat) : Block :=
  if b.hears p then
    (List.range 4).foldl (fun b k => b.count (portCtr p (8 + k)) (nth 0 corr k)) b
  else b

/-- Take one whole flit (R63, R66, R69, R83): the port's state decides what is live. -/
def Block.rxFlit (b : Block) (p : Nat) (raw : Bytes) (fecOk : Bool) : Block :=
  let f := Flit.decode raw
  let st := (b.port p).st
  let bad := !fecOk || !crcGood raw || decide (7 ≤ f.ftype)
  if !b.hears p then b
  else if bad then b.badFlit p
  else if f.ftype = 0 then b
  else if st = .failed then
    if f.ftype = 6 then b.modPort p fun x => { x with oosWhileFailed := some b.now } else b
  else
    let carries := (b.port p).carries
    let inOrder := f.ftype == 1 && carries && f.seq == (b.port p).expect
    let got := gatherFlit (b.port p).partialRx f
    let broken := f.ftype == 1 &&
      (if inOrder then got.isNone
       else !f.wellFilled)
    if broken then b.badFlit p
    else
      let b := if countsAsHeartbeat f.ftype then b.modPort p fun x => { x with gotHbAt := b.now }
        else b
      let b := if carries then b.takeHeader p f else b
      let d := ahead16 f.seq (b.port p).expect
      let ahead := decide (d ≤ (if f.ftype = 1 then 32768 else 32767)) && d != 0
      let lost (b : Block) : Block :=
        if carries && ahead then b.modPort p fun x => { x with discarding := true } else b
      match f.ftype with
      | 1 =>
        if inOrder then
          match got with
          | some g => b.acceptData p f g
          | none => b
        else if carries && !ahead then b.count (portCtr p 6) 1
        else lost b
      | 3 => (lost b).takeTime p f.payload
      | 4 =>
        let r := CapRec.decode f.payload
        if st = .exchange then b.takeCapx p r
        else if st = .retrain ∧ r.resume then
          (lost b).modPort p fun x => { x with peer := some r }
        else lost b
      | 5 => if st = .active then (lost b).takePause p f.payload else lost b
      | 6 => if st = .active then b.declareDead p else lost b
      | _ => lost b

/-- What arrives with the message bits between two alignment-marker groups (R62): each whole flit in its turn,
and nothing for the filler. `fec` is what the FEC tells with the flit of that number. -/
def groupArrivals (p : PortId) (s : List Bool) (fec : Nat → Fec) : List Instr :=
  (groupFlits s).mapIdx fun i raw => .flitReceived p raw (fec i)

/-- The message bits between two alignment-marker groups, `n` of them, that port `p` sends (R62), the first
flit of which is number `i` of those sent. -/
def Block.groupSent (b : Block) (p n i : Nat) : List Bool :=
  groupStream n ((b.out.filterMap fun
    | .flit q raw => if q = p then some raw else none
    | _ => none).drop i)

/-- FLIT_RECEIVED (R69): one of the flits of `groupArrivals`. A flit is 256 bytes; anything else stands for no
event. -/
def execFlitReceived (p : PortId) (raw : Bytes) (fec : Fec) (s : State) : Host.Outcome State Fault Refusal :=
  if raw.length = 256 then runR (fun b => (b.countCorr p.val fec.corr).rxFlit p.val raw fec.ok) s
  else .fault .notAFlit

/-- The device runs and the port's clock does (R425). -/
def Block.portLive (b : Block) (p : Nat) : Bool := b.live && b.domainRuns p

/-- DATA_FLIT_SEND (R67, R70 to R74, R105): one new DATA flit; while a PAUSE is owed, the rest of the
packet being sent and then the PAUSE (R84). -/
def execDataFlitSend (p : PortId) (s : State) : Host.Outcome State Fault Refusal :=
  run (fun b =>
    let x := b.port p.val
    if b.portLive p.val && x.st == .active && x.pauseTarget.isNone then
      (if x.pauseOwed.isSome then (b.sendPause p.val).answerPauses else b.packFlit p.val true)
    else b) s

/-- REPLAY_TIMEOUT falls due for the oldest unacknowledged flit (R70), counted from its last sending
(log 131). -/
def Block.replayDue (b : Block) (p : Nat) : Bool :=
  match (b.port p).unacked with
  | [] => false
  | t :: _ => decide (t.sentAt + b.portObj p 7 ≤ b.now)

/-- REPLAY_TIMEOUT (R70). The replay it starts is the one that a request due together asks for as well. While a
PAUSE REQ that was sent awaits its ACK none starts (log 176). -/
def execReplayTimeout (p : PortId) (s : State) : Host.Outcome State Fault Refusal :=
  run (fun b =>
    let x := b.port p.val
    if b.portLive p.val && x.st == .active && x.pauseTarget.isNone && b.replayDue p.val then
      (b.modPort p.val fun x => { x with timeoutAt := some b.now }).replay p.val
    else b) s

/-- The link engine runs and its lanes hold lock: it may send (R77, R83). -/
def Block.linkRuns (b : Block) (p : Nat) : Bool :=
  let st := (b.port p).st
  b.portLive p && (portTakes st || st == .exchange || st == .refused)

/-- HEARTBEAT (R77). -/
def execHeartbeat (p : PortId) (s : State) : Host.Outcome State Fault Refusal :=
  run (fun b =>
    let x := b.port p.val
    if b.linkRuns p.val && decide (x.sentHbAt + x.loaded.hbPeriod ≤ b.now) then
      b.sendCtl p.val 2 []
    else b) s

/-- The dead rule of R78 that time decides. -/
def Block.deadDue (b : Block) (p : Nat) : Bool :=
  let x := b.port p
  let d := b.deadTime p
  decide (x.gotHbAt + d ≤ b.now) ||
    (!x.unacked.isEmpty && x.replayed && decide (x.ackAt + d ≤ b.now))

/-- LINK_DEAD (R78, R83). -/
def execLinkDead (p : PortId) (s : State) : Host.Outcome State Fault Refusal :=
  runR (fun b =>
    if b.live && (b.port p.val).st == .active && b.deadDue p.val then b.declareDead p.val else b) s

/-- The port may run the row on these lanes: enabled, a width's lanes, none retired (R61, R80), and at the
rate that a lane failure holds it to (R86). -/
def Port.mayTrain (x : Port) (row lanes : Nat) : Bool :=
  (match x.rateHeld with
    | some r => (modeRow row).2 == r
    | none => true) && bit x.loaded.modes row && (laneMasks (modeRow row).1).contains lanes &&
    (List.range 4).all fun l => !(bit lanes l && bit x.retiredLanes l)

/-- MODE_TRAINED (R80, R83): after a mode disagreement not before CAPX with `REFUSE` 4 has been sent for
1 µs. -/
def execModeTrained (p : PortId) (row : Fin 9) (lanes : Fin 16) (s : State) :
    Host.Outcome State Fault Refusal :=
  run (fun b =>
    let x := b.port p.val
    let told := match x.refuse4At with
      | some t => decide (t + 1000 ≤ b.now)
      | none => true
    if b.portLive p.val && x.st == .training && told && x.mayTrain row.val lanes.val then
      b.setPort p.val
        { x with refuse4At := none, st := .exchange, since := b.now, peer := none, myRefuse := 0, lastCapx := none,
                 mode := mkMode lanes.val (modeRow row.val).2 }
    else b) s

/-- TRAINING_RESTART (R80, R83): 1 ms after training began with no mode. -/
def execTrainingRestart (p : PortId) (s : State) : Host.Outcome State Fault Refusal :=
  run (fun b =>
    let x := b.port p.val
    if b.live && x.st == .training && decide (x.since + 10 ^ 6 ≤ b.now) then
      (b.enterTraining p.val).modPort p.val fun x => { x with trainAttempts := x.trainAttempts + 1 }
    else b) s

/-- CAPX_SEND (R82, R83, R84): in EXCHANGE, in REFUSED, with `RESUME` in RETRAIN, and with `REFUSE` 4 in
the TRAINING that a mode disagreement led to. -/
def execCapxSend (p : PortId) (s : State) : Host.Outcome State Fault Refusal :=
  run (fun b =>
    let x := b.port p.val
    if b.portLive p.val && (x.st == .exchange || x.st == .refused || x.st == .retrain ||
        (x.st == .training && x.refuse4At.isSome)) then b.sendCapx p.val
    else b) s

/-- EXCHANGE_TIMEOUT (R83). -/
def execExchangeTimeout (p : PortId) (s : State) : Host.Outcome State Fault Refusal :=
  run (fun b =>
    let x := b.port p.val
    if b.live && x.st == .exchange && decide (x.since + 10 ^ 6 ≤ b.now) then b.enterTraining p.val
    else b) s

/-- LOCK_LOST (R83): in EXCHANGE or REFUSED; elsewhere loss of lock changes nothing (R78). -/
def execLockLost (p : PortId) (s : State) : Host.Outcome State Fault Refusal :=
  run (fun b =>
    let st := (b.port p.val).st
    if b.live && (st == .exchange || st == .refused) then b.enterTraining p.val else b) s

/-- RETRAIN_COMPLETE (R83, R84 step 5): the partner's record acknowledges up to `RESUME_ACK`, and
what is left is replayed. A target that uses a lane retired meanwhile cannot be completed. -/
def execRetrainComplete (p : PortId) (s : State) : Host.Outcome State Fault Refusal :=
  run (fun b =>
    let x := b.port p.val
    match x.peer with
    | some r =>
      if b.portLive p.val && x.st == .retrain && (modeLanes x.retrainTo &&& x.retiredLanes) == 0 then
        let b := b.sendCapx p.val
        let b := b.takeAck p.val r.resumeAck
        let b := b.modPort p.val fun x =>
          { x with st := .active, since := b.now, mode := x.retrainTo, gotHbAt := b.now,
                   ackAt := b.now, rateHeld := none,
                   changeResult := if x.changeResult = 1 then 2 else x.changeResult }
        let b := if (b.port p.val).unacked.isEmpty then b else b.replay p.val
        b.tellDegraded p.val
      else b
    | none => b) s

/-- RETRAIN_LIMIT (R83). -/
def execRetrainLimit (p : PortId) (s : State) : Host.Outcome State Fault Refusal :=
  runR (fun b =>
    let x := b.port p.val
    if b.live && x.st == .retrain && decide (x.since + b.portObj p.val 8 ≤ b.now) then
      b.failLink p.val
    else b) s

/-- FAILED_TIMEOUT (R83): no OOS flit has come within the effective dead time. -/
def execFailedTimeout (p : PortId) (s : State) : Host.Outcome State Fault Refusal :=
  run (fun b =>
    let x := b.port p.val
    let d := b.deadTime p.val
    let quiet := match x.oosWhileFailed with
      | some t => decide (t + d ≤ b.now)
      | none => true
    if b.live && x.st == .failed && decide (x.since + d ≤ b.now) && quiet then
      b.enterTraining p.val
    else b) s

/-- LANE_FAIL (R85, R86): the lane is retired, which LANE_FAIL alone reports (log 132). A port in ACTIVE whose
mode uses it changes mode, by a full reset where the change is not seamless; from EXCHANGE and REFUSED it
trains anew (log 155). Training is held to the rate until the port is ACTIVE again, also where a change
under way fails. -/
def execLaneFail (p : PortId) (lane : Fin 4) (s : State) : Host.Outcome State Fault Refusal :=
  runR (fun b =>
    let x := b.port p.val
    if !b.live || x.st == .disabled || bit x.retiredLanes lane.val then b
    else
      let uses := bit (modeLanes x.mode) lane.val
      let hits := uses && (x.st == .active || x.st == .exchange || x.st == .refused) ||
        x.st == .retrain && (uses || bit (modeLanes x.retrainTo) lane.val)
      let x : Port :=
        { x with retiredLanes := setBit x.retiredLanes lane.val true,
                 rateHeld := if hits then some (modeRate x.mode) else x.rateHeld }
      let b := (b.setPort p.val x).count 1410 1
      let b := b.raise (blkPort p.val) 8 lane.val lane.val
      if !hits || x.st == .retrain then b
      else if x.st = .active then
        let (t, b) := b.avoidMode x
        match t with
        | some m => b.changeMode p.val m true
        | none => b.failLink p.val
      else b.resetPort p.val) s

/-- TIME_FLIT_SEND (R90). -/
def execTimeFlitSend (p : PortId) (s : State) : Host.Outcome State Fault Refusal :=
  run (fun b =>
    let x := b.port p.val
    if b.portLive p.val && x.st == .active && x.timeOk && decide (x.lastTimeFlit + b.timePeriod ≤ b.now) then
      (b.sendCtl p.val 3 (b.timePayload p.val)).modPort p.val fun x =>
        { x with lastTimeFlit := b.now }
    else b) s

/-- TIME_PARENT_RESELECT (R92): the first usable port of the list; none loses time. -/
def execTimeParentReselect (s : State) : Host.Outcome State Fault Refusal :=
  run (fun b =>
    if !b.live || b.isRoot then b
    else
      match b.bestParent with
      | some p =>
        if b.time.parent = some p then b
        else b.modTime fun t => { t with parent := some p, goodOffsets := 0 }
      | none =>
        let had := b.time.parent.isSome
        let b := b.modTime fun t => { t with parent := none, synced := false, goodOffsets := 0 }
        if had then b.eventAll 11 [] else b) s

/-- PPS_EDGE (R93, R502): quench does not stop time. -/
def execPpsEdge (highNs : Nat) (s : State) : Host.Outcome State Fault Refusal :=
  run (fun b =>
    let spaced := match b.time.lastPps with
      | some t => decide (t + 500000000 ≤ b.now)
      | none => true
    if b.phase == .running && b.isRoot && decide (100 ≤ highNs) && spaced then
      let b := b.modTime fun t =>
        { t with lastPps := some b.now, synced := t.synced || b.domainRuns clkTime, stratum := 0 }
      match b.time.nextSecond with
      | some v =>
        (b.modTime fun t => { t with nextSecond := none }).applyOffset ((b.time.now : Int) - v) true
      | none =>
        let sec : Nat := (b.time.now + 500000000) / 10 ^ 9 * 10 ^ 9
        b.applyOffset ((b.time.now : Int) - sec) false
    else b) s

/-- PPS_OUT (R501). -/
def execPpsOut (s : State) : Host.Outcome State Fault Refusal :=
  run (fun b => if b.phase = .held ∨ b.phase = .dead then b else b.pulseFor) s

/-- FILL_FLIT_SEND (R65, R77): in a slot for which the link engine has nothing. -/
def execFillFlitSend (p : PortId) (s : State) : Host.Outcome State Fault Refusal :=
  run (fun b =>
    let x := b.port p.val
    let data := x.st == .active && x.pauseTarget.isNone &&
      (x.opened.isSome || (x.pauseOwed.isNone && (b.nextVc p.val).isSome)) &&
      decide (x.unacked.length < b.replayDepth p.val)
    if b.linkRuns p.val && !data then b.emit (.flit p.val fillFlit) else b) s

/-- OOS_FLIT_SEND (R65, R79). -/
def execOosFlitSend (p : PortId) (s : State) : Host.Outcome State Fault Refusal :=
  run (fun b =>
    if b.quench && (b.port p.val).st == .oos && b.domOn (elSerdes p.val) && b.domainRuns p.val then
      b.sendCtl p.val 6 []
    else b) s

end Sys2Proof.Machine
end

