-- ==== Sys2Proof/Machine/Power.lean ====
section
/-! DEFINITION. Package resets and start-up (R443 to R456), switched domains (R446 to R448), gates
(R431, R432), the resets of host links and functions (R208 to R212, R344), address translation (R204)
and the test access port (R482). -/

namespace Sys2Proof.Machine

/-! ## Package resets -/

/-- Start-up runs with the straps latched again (R443, R445, R449). The cause is the one recorded first,
and power-on where the latch of R445 is clear (R451). -/
def Block.comeUp (b : Block) (st : Straps) : Block :=
  ({ b with bootMode := st.bootMode.val, bifStrap := st.pcieBif.val, testMode := st.testMode,
            resetCause := if b.fromPowerOn then 0 else b.resetCause,
            fromPowerOn := false } : Block).startUp

/-- A low pulse of PORST_N of this length resets the device (R443); between 1 µs and 10 µs it may. -/
def Block.porstTakes (b : Block) (lowNs : Nat) : Bool × Block :=
  if lowNs < 1000 then (false, b)
  else if 10000 ≤ lowNs then (true, b)
  else
    let (k, b) := b.choose 2
    (k == 1, b)

/-- PORST_N falls (R443). -/
def Block.porstFalls (b : Block) (lowNs : Nat) : Block :=
  if b.porstLow then b
  else
    let (takes, b) := b.porstTakes lowNs
    if takes then { b.holdFor 1 with porstLow := true } else b

/-- PORST_N rises (R443, R455). -/
def Block.porstRises (b : Block) (st : Straps) : Block :=
  if !b.porstLow then b
  else
    let b := { b with porstLow := false }
    if b.railHold then b else b.comeUp st

/-- Every rail has been in range for 1 ms (R445). -/
def Block.railsGood (b : Block) (st : Straps) : Block :=
  if !b.railHold then b
  else
    let b := { b with railHold := false }
    if b.porstLow then b else b.comeUp st

/-- A chip reset of this cause (R450, R451). A `CHIP_RESET` write and a life-cycle change start it once
their reply is sent; a fault reaction does nothing in quench. -/
def Block.resetFor (b : Block) (cause : ChipResetCause) : Block :=
  match cause with
  | .chipResetWrite => if b.rstAsked && b.mnetWait.isEmpty then b.chipReset 2 else b
  | .faultReaction => if b.quench then b else b.chipReset 3
  | .lifeCycleChange => b.lcResetDue
  | .spWatchdog => if b.awake then b.raise blkSvc 8 noUnit 0 else b

/-! ## Switched domains -/

/-- What the switch of a domain takes with it (R447 step 2): PLLs lose power, and the management network
its I3C address. -/
def Block.domLost (b : Block) (e : Nat) : Block :=
  let b := b.cutDom e
  if 33 ≤ e ∧ e < 41 then b.setLocked (e - 33) false
  else if 129 ≤ e ∧ e < 133 then b.setLocked (8 + (e - 129)) false
  else if e = elMnet then { b with i3cAddr := none, mctpEid := 0, mnetWait := [] }
  else b

/-- A domain answers the request for quiescence and is switched off (R447); the write that asked for it is
answered. -/
def Block.domQuiet (b : Block) (e : Nat) : Block :=
  let d := b.dom e
  if d.st = .on ∧ d.quietAsked.isSome then
    let b := b.domLost e
    if d.busy then b.answerWaiting (1024 + e) stOk 0 else b
  else b

/-- A domain has not answered within `GATE_TIMEOUT` (R447 step 1). -/
def Block.domExpires (b : Block) (e : Nat) : Block :=
  let d := b.dom e
  match d.quietAsked with
  | some t =>
    if t + b.gateTimeout * 1000 ≤ b.now then
      let b := b.setDom e { d with quietAsked := none, busy := false }
      if d.busy then b.answerWaiting (1024 + e) dsBusy 0 else b
    else b
  | none => b

/-- The enabled ports of a lane die. -/
def Block.dieEnabled (b : Block) (n : Nat) : List Nat :=
  ((List.range 4).map (4 * n + ·)).filter b.portEnabled

/-- What a domain does once it is out of reset: the bridge of a lane die lets its ports' domains come
on (R448), and an SRAM group is wiped (R447 step 4). -/
def Block.domStarts (b : Block) (e : Nat) : Block :=
  if 143 ≤ e ∧ e < 147 then (b.dieEnabled (e - 143)).foldl (fun b p => b.powerPort p) b
  else if 81 ≤ e ∧ e < 129 then
    { b with banks := Tbl.drop (fun k => k / 33 == e - 81) b.banks }
  else b

/-- The fault registers that go with domain `e` are at reset (R447 step 4). -/
def Block.freshFlt (b : Block) (e : Nat) : Block :=
  match b.domBlk e with
  | some blk => b.setFlt blk {}
  | none => b

/-- DOMAIN_RAMP_DONE (R447): the domain is on; a switch that waited for the ramp is applied, and the next
domains take its slot. -/
def Block.rampDone (b : Block) (e : Nat) : Block :=
  let d := b.dom e
  if d.st ≠ .ramping then b
  else
    let b := ((((b.freshFlt e).setDom e { st := .on }).domStarts e).calibrate e).turnBoard
    let b := if d.want = some false then
        b.setDom e { st := .on, quietAsked := some b.now, busy := d.busy }
      else b
    let b := b.serveRamps
    if b.quench then b else (b.startPorts).startLinks

/-- 1 ms has passed since a domain was switched off, and nothing asks for it. -/
def Block.longOff (b : Block) (e : Nat) : Bool :=
  let d := b.dom e
  d.st == .off && d.want != some true && decide (d.offAt + 10 ^ 6 ≤ b.now)

/-- PORT_POWER_OFF (R448): 1 ms after the port has entered DISABLED, its domains are asked for quiescence,
and the LC PLL that neither of its ports uses. -/
def Block.portOff (b : Block) (p : Nat) : Block :=
  let x := b.port p
  if x.st = .disabled ∧ !b.portEnabled p ∧ x.since + 10 ^ 6 ≤ b.now then
    let b := (b.askOff (elSerdes p) false).askOff (elLinkEngine p) false
    if b.portEnabled (p / 2 * 2) || b.portEnabled (p / 2 * 2 + 1) then b
    else b.askOff (elLcPll (p / 2)) false
  else b

/-- The domains of lane die `n` but its bridge. -/
def dieDomains (n : Nat) : List Nat :=
  ((List.range 4).flatMap fun i => [elSerdes (4 * n + i), elLinkEngine (4 * n + i)]) ++
    [elLcPll (2 * n), elLcPll (2 * n + 1)]

/-- BRIDGE_POWER_OFF (R448): not while a port of the lane die is enabled, whose domains wait for the bridge. -/
def Block.bridgeOff (b : Block) (n : Nat) : Block :=
  if (b.dieEnabled n).isEmpty && (dieDomains n).all b.longOff then b.askOff (elBridge n) false else b

/-! ## Host links and functions -/

/-- PERST_Hn_N falls (R209). An absent host link takes no notice (R200). -/
def Block.perstFalls (b : Block) (n : Nat) : Block :=
  let was := (b.link n).perstHigh
  let b := b.modLink n fun l => { l with perstHigh := false }
  if was && b.phase == .running && b.present n && (b.link n).st != .absent then b.resetLink n .inReset
  else b

/-- PERST_Hn_N rises (R212): the link leaves Detect and trains. -/
def Block.perstRises (b : Block) (n : Nat) : Block :=
  let b := b.modLink n fun l => { l with perstHigh := true }
  if b.phase = .running then b.leaveDetect n else b

/-- A hot reset or the loss of the link (R209). -/
def Block.linkDown (b : Block) (n : Nat) : Block :=
  if b.phase = .running ∧ ((b.link n).st = .training ∨ (b.link n).st = .dlActive) then b.hotReset n else b

/-- The host reaches the function's configuration space (R212). -/
def Block.cfgUp (b : Block) (fid : Nat) : Bool :=
  b.phase == .running && b.fnThere fid

/-- A VF of a host link that exists (R208). -/
def Block.vfExists (b : Block) (hl vf : Nat) : Bool :=
  (b.link hl).vfEnable && decide (0 < vf) && decide (vf ≤ (b.link hl).numVfs)

/-- A write of VF Enable with `count` in NumVFs (R208); 0 clears VF Enable, a reset of every VF. -/
def Block.setVfs (b : Block) (hl count : Nat) : Block :=
  if count = 0 then
    let b := b.resetVfs (b.vfsOf hl)
    b.modLink hl fun l => { l with vfEnable := false }
  else if (b.link hl).vfEnable then b
  else b.modLink hl fun l => { l with vfEnable := true, numVfs := count }

/-- A reset of function `f` of host link `hl` waits for requests issued before it began, a PF's for those of every
function of the link (R210, R211). -/
def Block.flrWaits (b : Block) (hl f : Nat) : Bool :=
  b.dma.any fun d => d.hl == hl && (f == 0 || d.fid == fidOf hl f)

/-- A reset of a function completes (R210): readiness is signalled for a function that exists. -/
def Block.flrDone (b : Block) (hl f : Nat) : Block :=
  let fid := fidOf hl f
  if !(b.fn fid).flr || b.flrWaits hl f then b
  else if f = 0 then (b.endPf hl).emit (.readiness hl fid)
  else
    let b := b.endReset fid
    if b.vfExists hl f then
      (b.modFn fid fun x => { x with ready := true }).emit (.readiness hl fid)
    else b

/-- An invalidation of a range arrives (R204). It waits for requests that use the old translation. -/
def Block.invalidate (b : Block) (hl : Nat) (range : Xlat) (remapped : Bool) : Block :=
  (b.modLink hl fun l => { l with invWait := l.invWait ++ [(range, remapped)] }).serveInv hl

/-- Lane counts and rates that a host link can settle on (R202). -/
def linkSettles (width lanes rate : Nat) : Bool :=
  [1, 2, 4, 8, 16].contains lanes && decide (lanes ≤ width) && [8, 16, 32, 64].contains rate

/-! ## The test access port -/

/-- The test access port takes instructions. -/
def Block.tapOn (b : Block) : Bool :=
  b.trstHigh && b.domOn elDebug && b.clockOn 23 && !(b.clk 23).held && b.awake

/-- The IDCODE: IEEE 1149.1's layout, with the part number (log 49). -/
def idcode : Nat :=
  1 + Config.idcodeFree % 2 ^ 11 * 2 + 0x6416 * 2 ^ 12 + Config.idcodeFree / 2 ^ 11 % 16 * 2 ^ 28

/-- An instruction of the test access port whose effect the manual gives (R482, R454): what TDO shows
first. Outside BLANK and VENDOR every instruction but the four of IEEE 1149.1 acts as BYPASS. -/
def Block.tap (b : Block) (i : TapInstr) : Block :=
  match i with
  | .idcode => b.emit (.tdo idcode)
  | .samplePreload => ({ b with fresh := b.fresh + 1 } : Block).emit (.tdo (b2n (Config.boundaryBit b.fresh)))
  | .extest => ({ b with fresh := b.fresh + 1 } : Block).emit (.tdo (b2n (Config.boundaryBit b.fresh)))
  | .releaseDebugHold =>
    if 2 ≤ b.lifeCycle then b.emit (.tdo 0) else if b.phase = .debugHold then b.bootFlash else b
  | .bypass => b.emit (.tdo 0)
  | .debug _ => b.emit (.tdo 0)

/-- TRST_N changes level (R432): the DBG domain is gated while it is low. -/
def Block.trst (b : Block) (high : Bool) : Block :=
  let b := { b with trstHigh := high }
  if b.phase = .held ∨ b.phase = .dead then b
  else
    b.modClk 23 fun c =>
      if high then (if c.gate then c else { c with gated := false, gateAsked := none })
      else if c.gated || c.gateAsked.isSome then c
      else { c with gateAsked := some b.now }

/-! ## Meanings -/

/-- CHIP_RESET (R450, R451). -/
def execChipReset (cause : ChipResetCause) (s : State) : Host.Outcome State Fault Refusal :=
  runR (fun b => b.resetFor cause) s

/-- GATE_QUIESCENCE (R431, R447). -/
def execGateQuiescence (t : GateTarget) (s : State) : Host.Outcome State Fault Refusal :=
  runR (fun b =>
    if b.phase = .held ∨ b.phase = .dead then b
    else
      match t with
      | .clock d => b.gateClock d.val
      | .power e => b.domQuiet e.val) s

/-- GATE_TIMEOUT (R431, R447). -/
def execGateTimeout (t : GateTarget) (s : State) : Host.Outcome State Fault Refusal :=
  runR (fun b =>
    if b.phase = .held ∨ b.phase = .dead then b
    else
      match t with
      | .clock d => b.gateExpires d.val
      | .power e => b.domExpires e.val) s

/-- POWER_ON_RESET (R445). -/
def execPowerOnReset (rail : Rail) (s : State) : Host.Outcome State Fault Refusal :=
  run (fun b => b.railTrip rail) s

/-- PORST_ASSERT (R443). -/
def execPorstAssert (lowNs : Nat) (s : State) : Host.Outcome State Fault Refusal :=
  run (fun b => b.porstFalls lowNs) s

/-- PORST_RELEASE (R443, R455). -/
def execPorstRelease (straps : Straps) (s : State) : Host.Outcome State Fault Refusal :=
  runR (fun b => b.porstRises straps) s

/-- DOMAIN_RAMP_DONE (R447, R448). -/
def execDomainRampDone (element : Fin 149) (s : State) : Host.Outcome State Fault Refusal :=
  runR (fun b => if b.phase = .held ∨ b.phase = .dead then b else b.rampDone element.val) s

/-- PORT_POWER_OFF (R448). -/
def execPortPowerOff (p : PortId) (s : State) : Host.Outcome State Fault Refusal :=
  run (fun b => if b.phase = .running then b.portOff p.val else b) s

/-- PERST_ASSERT (R209). -/
def execPerstAssert (hl : HostId) (s : State) : Host.Outcome State Fault Refusal :=
  runR (fun b => b.perstFalls hl.val) s

/-- PERST_RELEASE (R212). -/
def execPerstRelease (hl : HostId) (s : State) : Host.Outcome State Fault Refusal :=
  run (fun b => b.perstRises hl.val) s

/-- HOT_RESET (R209). -/
def execHotReset (hl : HostId) (s : State) : Host.Outcome State Fault Refusal :=
  runR (fun b => b.linkDown hl.val) s

/-- PF_FLR (R209, R170). -/
def execPfFlr (hl : HostId) (s : State) : Host.Outcome State Fault Refusal :=
  runR (fun b => if b.cfgUp (fidOf hl 0) then b.resetPf hl.val else b) s

/-- VF_FLR (R209, R344). Function 0 is no VF. -/
def execVfFlr (hl : HostId) (vf : FnId) (s : State) : Host.Outcome State Fault Refusal :=
  runR (fun b =>
    if b.vfExists hl.val vf.val && b.cfgUp (fidOf hl vf) then b.resetVf (fidOf hl vf) else b) s

/-- VF_ENABLE (R208). -/
def execVfEnable (hl : HostId) (count : FnId) (s : State) : Host.Outcome State Fault Refusal :=
  runR (fun b => if b.cfgUp (fidOf hl 0) then b.setVfs hl.val count.val else b) s

/-- FLR_COMPLETE (R210). -/
def execFlrComplete (hl : HostId) (f : FnId) (s : State) : Host.Outcome State Fault Refusal :=
  runR (fun b => b.flrDone hl.val f.val) s

/-- ATS_INVALIDATION (R204). -/
def execAtsInvalidation (hl : HostId) (f : AtsScope) (addr : Nat) (len : Nat) (remapped : Bool)
    (s : State) : Host.Outcome State Fault Refusal :=
  run (fun b =>
    if b.cfgUp (fidOf hl f.fn) then
      b.invalidate hl.val ⟨fidOf hl f.fn, f.pasid.map (·.toNat), addr, len⟩ remapped
    else b) s

/-- DL_ACTIVE (R212). -/
def execDlActive (hl : HostId) (lanes : Nat) (rate : Nat) (s : State) : Host.Outcome State Fault Refusal :=
  run (fun b =>
    let n := hl.val
    if b.phase = .running ∧ (b.link n).st = .training ∧ b.locked (8 + n) ∧ b.domainRuns (16 + n) ∧
        linkSettles (linkWidth b.bifCode n) lanes rate then
      b.modLink n fun l => { l with st := .dlActive, width := lanes, rate := rate }
    else b) s

/-- CONFIG_READY (R212). -/
def execConfigReady (hl : HostId) (s : State) : Host.Outcome State Fault Refusal :=
  run (fun b =>
    if (b.link hl.val).st = .dlActive then b.modLink hl.val fun l => { l with ready := true } else b) s

/-- VF_READY (R208). -/
def execVfReady (hl : HostId) (vf : FnId) (s : State) : Host.Outcome State Fault Refusal :=
  run (fun b =>
    let fid := fidOf hl vf
    if b.vfExists hl.val vf.val && b.fnLive fid && !(b.fn fid).ready then
      (b.modFn fid fun f => { f with ready := true }).emit (.readiness hl.val fid)
    else b) s

/-- RAILS_IN_RANGE (R445). -/
def execRailsInRange (straps : Straps) (s : State) : Host.Outcome State Fault Refusal :=
  runR (fun b => b.railsGood straps) s

/-- BRIDGE_POWER_OFF (R448). -/
def execBridgePowerOff (n : Fin 4) (s : State) : Host.Outcome State Fault Refusal :=
  run (fun b => if b.phase = .running then b.bridgeOff n.val else b) s

/-- TRST_N (R432). -/
def execTrstN (high : Bool) (s : State) : Host.Outcome State Fault Refusal :=
  run (fun b => b.trst high) s

/-- TAP_INSTRUCTION (R482). What an instruction of the debug set does is not described, so in the states
where it is offered it is refused. -/
def execTapInstruction (i : TapInstr) (s : State) : Host.Outcome State Fault Refusal :=
  match i with
  | .debug code =>
    if s.toBlock.tapOn && decide (s.toBlock.lifeCycle < 2) then .refused (.debugInstruction code)
    else run (fun b => if b.tapOn then b.tap i else b) s
  | _ => runR (fun b => if b.tapOn then b.tap i else b) s

end Sys2Proof.Machine
end

