-- ==== Sys2Proof/Machine/Dispatch.lean ====
section
/-! DEFINITION. One arm per command: the call of its meaning. -/

namespace Sys2Proof.Machine

/-- The effect of a command on everything but the queue. -/
def exec (i : Instr) (s : State) : Host.Outcome State Fault Refusal :=
  match i with
  | .flitReceived p raw fec => Sys2Proof.Machine.execFlitReceived p raw fec s
  | .dataFlitSend p => Sys2Proof.Machine.execDataFlitSend p s
  | .replayTimeout p => Sys2Proof.Machine.execReplayTimeout p s
  | .heartbeat p => Sys2Proof.Machine.execHeartbeat p s
  | .linkDead p => Sys2Proof.Machine.execLinkDead p s
  | .modeTrained p row lanes => Sys2Proof.Machine.execModeTrained p row lanes s
  | .trainingRestart p => Sys2Proof.Machine.execTrainingRestart p s
  | .capxSend p => Sys2Proof.Machine.execCapxSend p s
  | .exchangeTimeout p => Sys2Proof.Machine.execExchangeTimeout p s
  | .lockLost p => Sys2Proof.Machine.execLockLost p s
  | .retrainComplete p => Sys2Proof.Machine.execRetrainComplete p s
  | .retrainLimit p => Sys2Proof.Machine.execRetrainLimit p s
  | .failedTimeout p => Sys2Proof.Machine.execFailedTimeout p s
  | .laneFail p lane => Sys2Proof.Machine.execLaneFail p lane s
  | .timeFlitSend p => Sys2Proof.Machine.execTimeFlitSend p s
  | .timeParentReselect => Sys2Proof.Machine.execTimeParentReselect s
  | .ppsEdge highNs => Sys2Proof.Machine.execPpsEdge highNs s
  | .ppsOut => Sys2Proof.Machine.execPpsOut s
  | .packetForward input vc => Sys2Proof.Machine.execPacketForward input vc s
  | .reqInject op => Sys2Proof.Machine.execReqInject op s
  | .heatAge ctx path => Sys2Proof.Machine.execHeatAge ctx path s
  | .pathHoldoff ctx path => Sys2Proof.Machine.execPathHoldoff ctx path s
  | .gatherWait tree key => Sys2Proof.Machine.execGatherWait tree key s
  | .sendEager k => Sys2Proof.Machine.execSendEager k s
  | .sendRts k => Sys2Proof.Machine.execSendRts k s
  | .putPacket k => Sys2Proof.Machine.execPutPacket k s
  | .getReq k => Sys2Proof.Machine.execGetReq k s
  | .getResp k => Sys2Proof.Machine.execGetResp k s
  | .atomicPacket k => Sys2Proof.Machine.execAtomicPacket k s
  | .atomicResp k => Sys2Proof.Machine.execAtomicResp k s
  | .mcastPut k => Sys2Proof.Machine.execMcastPut k s
  | .ack k => Sys2Proof.Machine.execAck k s
  | .nak k => Sys2Proof.Machine.execNak k s
  | .rdvFin k => Sys2Proof.Machine.execRdvFin k s
  | .unroutableReport k => Sys2Proof.Machine.execUnroutableReport k s
  | .deliveryReport k => Sys2Proof.Machine.execDeliveryReport k s
  | .ackDelay ctx => Sys2Proof.Machine.execAckDelay ctx s
  | .retransmissionTimeout ctx => Sys2Proof.Machine.execRetransmissionTimeout ctx s
  | .rnrWait ctx psn => Sys2Proof.Machine.execRnrWait ctx psn s
  | .atomicHold ctx psn => Sys2Proof.Machine.execAtomicHold ctx psn s
  | .rdvWait ctx msn => Sys2Proof.Machine.execRdvWait ctx msn s
  | .pantryFillDone region key result => Sys2Proof.Machine.execPantryFillDone region key result s
  | .hostDmaCompletion tag result => Sys2Proof.Machine.execHostDmaCompletion tag result s
  | .overflowCopyDone ctx msn ok => Sys2Proof.Machine.execOverflowCopyDone ctx msn ok s
  | .poll q entries => Sys2Proof.Machine.execPoll q entries s
  | .eqFreeRead q entries => Sys2Proof.Machine.execEqFreeRead q entries s
  | .nop q => Sys2Proof.Machine.execNop q s
  | .send q => Sys2Proof.Machine.execSend q s
  | .put q => Sys2Proof.Machine.execPut q s
  | .putMcast q => Sys2Proof.Machine.execPutMcast q s
  | .get q => Sys2Proof.Machine.execGet q s
  | .atomic q => Sys2Proof.Machine.execAtomic q s
  | .localFence q => Sys2Proof.Machine.execLocalFence q s
  | .postRecv q => Sys2Proof.Machine.execPostRecv q s
  | .postOverflow q => Sys2Proof.Machine.execPostOverflow q s
  | .pour q => Sys2Proof.Machine.execPour q s
  | .pourArm m => Sys2Proof.Machine.execPourArm m s
  | .mouldNopStep m => Sys2Proof.Machine.execMouldNopStep m s
  | .copyIn m => Sys2Proof.Machine.execCopyIn m s
  | .copyOut m => Sys2Proof.Machine.execCopyOut m s
  | .mouldSendStep m => Sys2Proof.Machine.execMouldSendStep m s
  | .recv m => Sys2Proof.Machine.execRecv m s
  | .combine m => Sys2Proof.Machine.execCombine m s
  | .gather m => Sys2Proof.Machine.execGather m s
  | .mcast m => Sys2Proof.Machine.execMcast m s
  | .stepComplete m step => Sys2Proof.Machine.execStepComplete m step s
  | .mouldData k => Sys2Proof.Machine.execMouldData k s
  | .gatherRecordGrant input vc => Sys2Proof.Machine.execGatherRecordGrant input vc s
  | .breakMsg k => Sys2Proof.Machine.execBreakMsg k s
  | .pourWatchdog m => Sys2Proof.Machine.execPourWatchdog m s
  | .mouldCheckDone m => Sys2Proof.Machine.execMouldCheckDone m s
  | .pdCreate hl f => Sys2Proof.Machine.execPdCreate hl f s
  | .pdDestroy hl f => Sys2Proof.Machine.execPdDestroy hl f s
  | .epCreate hl f => Sys2Proof.Machine.execEpCreate hl f s
  | .epDestroy hl f => Sys2Proof.Machine.execEpDestroy hl f s
  | .epMcastBind hl f => Sys2Proof.Machine.execEpMcastBind hl f s
  | .ctxCreate hl f => Sys2Proof.Machine.execCtxCreate hl f s
  | .ctxConnect hl f => Sys2Proof.Machine.execCtxConnect hl f s
  | .ctxDestroy hl f => Sys2Proof.Machine.execCtxDestroy hl f s
  | .ctxQuery hl f => Sys2Proof.Machine.execCtxQuery hl f s
  | .regRegister hl f => Sys2Proof.Machine.execRegRegister hl f s
  | .regDeregister hl f => Sys2Proof.Machine.execRegDeregister hl f s
  | .mctxCreate hl f => Sys2Proof.Machine.execMctxCreate hl f s
  | .mctxDestroy hl f => Sys2Proof.Machine.execMctxDestroy hl f s
  | .recvCancel hl f => Sys2Proof.Machine.execRecvCancel hl f s
  | .qCreate hl f => Sys2Proof.Machine.execQCreate hl f s
  | .pantryInstall hl f => Sys2Proof.Machine.execPantryInstall hl f s
  | .pantryRemove hl f => Sys2Proof.Machine.execPantryRemove hl f s
  | .dumpStart hl f => Sys2Proof.Machine.execDumpStart hl f s
  | .dumpStop hl f => Sys2Proof.Machine.execDumpStop hl f s
  | .ctrProgram hl f => Sys2Proof.Machine.execCtrProgram hl f s
  | .traceStart hl f => Sys2Proof.Machine.execTraceStart hl f s
  | .traceStop hl f => Sys2Proof.Machine.execTraceStop hl f s
  | .stepStart hl f => Sys2Proof.Machine.execStepStart hl f s
  | .stepStop hl f => Sys2Proof.Machine.execStepStop hl f s
  | .commandCompletion hl f => Sys2Proof.Machine.execCommandCompletion hl f s
  | .acquire hl f cell w => Sys2Proof.Machine.execAcquire hl f cell w s
  | .tryLock hl f cell w => Sys2Proof.Machine.execTryLock hl f cell w s
  | .release hl f cell w => Sys2Proof.Machine.execRelease hl f cell w s
  | .cancel hl f cell w => Sys2Proof.Machine.execCancel hl f cell w s
  | .claim hl f cell w => Sys2Proof.Machine.execClaim hl f cell w s
  | .forceRelease hl f cell w => Sys2Proof.Machine.execForceRelease hl f cell w s
  | .setMode hl f cell w => Sys2Proof.Machine.execSetMode hl f cell w s
  | .update who groups => Sys2Proof.Machine.execUpdate who groups s
  | .qWake hl f value => Sys2Proof.Machine.execQWake hl f value s
  | .tgRebind hl value => Sys2Proof.Machine.execTgRebind hl value s
  | .mailboxGo hl value => Sys2Proof.Machine.execMailboxGo hl value s
  | .registerWrite who addr size value => Sys2Proof.Machine.execRegisterWrite who addr size value s
  | .reservedRead who addr size => Sys2Proof.Machine.execReservedRead who addr size s
  | .clkForceGo d src => Sys2Proof.Machine.execClkForceGo d src s
  | .holdSet d => Sys2Proof.Machine.execHoldSet d s
  | .holdClr d => Sys2Proof.Machine.execHoldClr d s
  | .fltForce b bits => Sys2Proof.Machine.execFltForce b bits s
  | .idpRead => Sys2Proof.Machine.execIdpRead s
  | .idpWrite => Sys2Proof.Machine.execIdpWrite s
  | .idpInfo => Sys2Proof.Machine.execIdpInfo s
  | .segOpen => Sys2Proof.Machine.execSegOpen s
  | .segData => Sys2Proof.Machine.execSegData s
  | .segCommit => Sys2Proof.Machine.execSegCommit s
  | .segAbort => Sys2Proof.Machine.execSegAbort s
  | .xferIdleTimeout handle => Sys2Proof.Machine.execXferIdleTimeout handle s
  | .doeAttestRequest hl request => Sys2Proof.Machine.execDoeAttestRequest hl request s
  | .lifeCycleReset => Sys2Proof.Machine.execLifeCycleReset s
  | .chipReset cause => Sys2Proof.Machine.execChipReset cause s
  | .faultSourceRaised b src unit detail => Sys2Proof.Machine.execFaultSourceRaised b src unit detail s
  | .handshakeStall b unit stage => Sys2Proof.Machine.execHandshakeStall b unit stage s
  | .scrub g bank row word found => Sys2Proof.Machine.execScrub g bank row word found s
  | .regionRetire r => Sys2Proof.Machine.execRegionRetire r s
  | .bwWindowEnd => Sys2Proof.Machine.execBwWindowEnd s
  | .dumpPass hl f => Sys2Proof.Machine.execDumpPass hl f s
  | .pllReferenceLoss k => Sys2Proof.Machine.execPllReferenceLoss k s
  | .pllLock k => Sys2Proof.Machine.execPllLock k s
  | .clockSwitchDone d => Sys2Proof.Machine.execClockSwitchDone d s
  | .clockMonitorWindow d edges => Sys2Proof.Machine.execClockMonitorWindow d edges s
  | .gateQuiescence t => Sys2Proof.Machine.execGateQuiescence t s
  | .gateTimeout t => Sys2Proof.Machine.execGateTimeout t s
  | .tempoMeter r count => Sys2Proof.Machine.execTempoMeter r count s
  | .governorIteration avs => Sys2Proof.Machine.execGovernorIteration avs s
  | .powerOnReset rail => Sys2Proof.Machine.execPowerOnReset rail s
  | .porstAssert lowNs => Sys2Proof.Machine.execPorstAssert lowNs s
  | .porstRelease straps => Sys2Proof.Machine.execPorstRelease straps s
  | .domainRampDone element => Sys2Proof.Machine.execDomainRampDone element s
  | .portPowerOff p => Sys2Proof.Machine.execPortPowerOff p s
  | .perstAssert hl => Sys2Proof.Machine.execPerstAssert hl s
  | .perstRelease hl => Sys2Proof.Machine.execPerstRelease hl s
  | .hotReset hl => Sys2Proof.Machine.execHotReset hl s
  | .pfFlr hl => Sys2Proof.Machine.execPfFlr hl s
  | .vfFlr hl vf => Sys2Proof.Machine.execVfFlr hl vf s
  | .vfEnable hl count => Sys2Proof.Machine.execVfEnable hl count s
  | .flrComplete hl f => Sys2Proof.Machine.execFlrComplete hl f s
  | .atsInvalidation hl f addr len remapped => Sys2Proof.Machine.execAtsInvalidation hl f addr len remapped s
  | .fillFlitSend p => Sys2Proof.Machine.execFillFlitSend p s
  | .oosFlitSend p => Sys2Proof.Machine.execOosFlitSend p s
  | .idpRequestReceived arrival => Sys2Proof.Machine.execIdpRequestReceived arrival s
  | .mctpControlMessage msg => Sys2Proof.Machine.execMctpControlMessage msg s
  | .entdaa address => Sys2Proof.Machine.execEntdaa address s
  | .dlActive hl lanes rate => Sys2Proof.Machine.execDlActive hl lanes rate s
  | .configReady hl => Sys2Proof.Machine.execConfigReady hl s
  | .vfReady hl vf => Sys2Proof.Machine.execVfReady hl vf s
  | .railsInRange straps => Sys2Proof.Machine.execRailsInRange straps s
  | .bridgePowerOff n => Sys2Proof.Machine.execBridgePowerOff n s
  | .trstN high => Sys2Proof.Machine.execTrstN high s
  | .tapInstruction k => Sys2Proof.Machine.execTapInstruction k s
  | .lowerHalfRead who addr => Sys2Proof.Machine.execLowerHalfRead who addr s

end Sys2Proof.Machine
end

