-- ==== Sys2Proof/Machine/Tick.lean ====
section
/-! DEFINITION. What 1 ns of time does by itself: uptime, fabric time (R91, R92), the poll budget
(R253) and the stall counters (R409). The step on an empty queue of commands is one such tick. -/

namespace Sys2Proof.Machine

/-- Units of the poll budget that stand for one read: the bucket counts 10^-9 reads (R253). -/
def pollUnit : Nat := 10 ^ 9

/-- The poll budgets fill at `POLL_BUDGET` reads a second, to at most 256 reads (R253). -/
def Block.fillBudgets (b : Block) : Block :=
  { b with links := Tbl.map {} (fun n l =>
      { l with bucket := min (256 * pollUnit) (l.bucket + b.obj (0x2010 + n) 17) }) b.links }

/-- VCs whose packet is ready and lacks credit, of ports that keep credits (R74, R83, R409). -/
def Block.stalledVcs (b : Block) : List (Nat × Nat) :=
  b.outQ.filterMap fun e =>
    let p := e.1 / 16
    let v := e.1 % 16
    if (b.port p).carries && !b.vcReady p v then some (p, v) else none

/-- Reads that fall due now and find no budget wait, and are counted (R253). -/
def Block.countWaits (b : Block) : Block :=
  b.queues.foldl (fun b e =>
    if e.2.live && e.2.pollAt == some b.now && decide ((b.link e.2.hl).bucket < pollUnit) then
      b.count 834 1
    else b) b

/-- One nanosecond passes. -/
def Block.tick (b : Block) : Block :=
  let b := { b with now := b.now + 1 }
  let b := ((b.tickTime).fillBudgets).countWaits
  b.stalledVcs.foldl (fun b s => b.count (portCtr s.1 (16 + s.2)) 1) b

end Sys2Proof.Machine
end

