-- ==== Sys2Proof/WellFormed.lean ====
section
/-! DEFINITION. Which commands stand for an event that can happen: flits of 256 bytes (R64), ring
entries of 64 bytes (R246), register accesses of a size a bus carries (R12, R223), lock words with
the code of their operation (R336). A command that is not well formed is no event of the
hardware. -/

namespace Sys2Proof

/-- Ring entries as a poll read returns them: 64 bytes each (R246). -/
def entriesWf (entries : Option (List Bytes)) : Bool :=
  match entries with
  | some l => l.all fun e => e.length == 64
  | none => true

/-- The sizes of a register access in bytes (R12). -/
def accessSizeWf (size : Nat) : Bool := size == 1 || size == 2 || size == 4 || size == 8

/-- The word that a lock command writes has the operation's code in `OP` (R336). -/
def lockCommandWf (w : BitVec 64) (op : Nat) : Bool := w.toNat % 16 == op

/-- The command stands for an event that can happen. -/
def Instr.wf : Instr → Bool
  | .flitReceived _ raw fec => raw.length == 256 && decide (fec.corr.length ≤ 4)
  | .poll _ entries => entriesWf entries
  | .eqFreeRead _ entries => entriesWf entries
  | .registerWrite _ _ size value => accessSizeWf size && decide (value.toNat < 256 ^ size)
  | .reservedRead _ _ size => accessSizeWf size
  | .scrub _ _ row word _ => decide (row < 2048) && decide (word < 8)
  | .dlActive _ lanes _ => lanes == 1 || lanes == 2 || lanes == 4 || lanes == 8 || lanes == 16
  | .pantryFillDone _ key _ => decide (key < 2 ^ 26)
  | .vfFlr _ vf => decide (vf.val ≠ 0)
  | .vfReady _ vf => decide (vf.val ≠ 0)
  | .acquire _ _ _ w => lockCommandWf w 1
  | .tryLock _ _ _ w => lockCommandWf w 2
  | .release _ _ _ w => lockCommandWf w 3
  | .cancel _ _ _ w => lockCommandWf w 4
  | .claim _ _ _ w => lockCommandWf w 5
  | .forceRelease _ _ _ w => lockCommandWf w 6
  | .setMode _ _ _ w => lockCommandWf w 7
  | _ => true

end Sys2Proof
end

