-- ==== Sys2Proof/Safety.lean ====
section
/-! DEFINITION. What counts as a safe run, and the terms in which the statements are made: a block in
which nothing is left to act, the flits a port sends, and what a write to a host amounts to. -/

namespace Sys2Proof.Machine

/-- The outcome is a next state. -/
def goesOn (o : Host.Outcome State Fault Refusal) : Bool :=
  match o with
  | .next _ => true
  | .fault _ => false
  | .refused _ => false

/-- A run of the commands that wait goes on to its end. -/
def runs : Nat → State → Bool
  | 0, _ => true
  | n + 1, s =>
    match step s with
    | .next t => runs n t
    | .fault _ => false
    | .refused _ => false

/-- Nothing waits that a step would act on beside its command: no reaction (R395), no dropped
privileged packet (R117), no open report record (R116), nothing that waits for a notification place
(R193), for a read or for the management network (R23), no block whose strobe stands over (R228), no reply
that waits for a PAUSE REQ (R376) and no settings that wait for their reply (R372). -/
abbrev Block.quiet (b : Block) : Prop :=
  b.reacts = [] ∧ b.lostPriv = [] ∧ b.reports = [] ∧ b.placeWait = [] ∧ b.readWait = [] ∧
    b.mnetWait = [] ∧ b.reactDue = [] ∧ (∀ w ∈ b.loadWait, w.1 < pauseKey) ∧ b.plcaDue = false

/-- No function has events of type `t` enabled (R266). -/
abbrev Block.unheard (b : Block) (t : Nat) : Prop := ∀ fid ∈ b.functions, b.evtOn fid t = false

/-- From `s` to `t` the ports change, and of them only port `p`. -/
def portOnly (p : Nat) (s t : Block) : Prop :=
  t = { s with ports := t.ports } ∧ ∀ q, q ≠ p → t.port q = s.port q

/-- Port `p` enters TRAINING at `s.now` with the settings it loads there (R83, R94). -/
def entersTraining (p : Nat) (s t : State) : Prop :=
  (t.port p).st = .training ∧ (t.port p).since = s.now ∧ (t.port p).loaded = s.portCfg p ∧
    (t.port p).peer = none ∧ portOnly p s.toBlock t.toBlock ∧ t.pending = s.pending

/-- The flit that port `p` sends carries the port's own acknowledgement, replay request and credit
limits (R64, R69, R76). -/
def carriesPort (x : Port) (f : Flit) : Prop :=
  f.ack = x.expect - 1 ∧ f.rr = x.discarding ∧ f.climA = x.clim f.cvcA ∧ f.climB = x.clim f.cvcB

/-- Between `s` and `t` port `p` sends flit `f`, and beside the port's own record nothing else
changes. -/
def sendsFlit (p : Nat) (f : Flit) (s t : State) : Prop :=
  t.out = s.out ++ [.flit p f.encode] ∧ carriesPort (s.port p) f ∧
    t = { s with ports := t.ports, out := t.out } ∧ ∀ q, q ≠ p → t.port q = s.port q

/-! ## Hosts -/

/-- A write to the memory of function `fid` can be issued now, wherever it goes (R158, R404). -/
abbrev Block.hostReady (b : Block) (fid : Nat) : Prop :=
  b.live = true ∧ b.fnLive fid = true ∧ b.hostRuns (fidLink fid) = true ∧
    (b.link (fidLink fid)).noXlat = []

/-- Queue `q` writes its completions and no notifications (R249). -/
abbrev Block.plainQueue (b : Block) (q : Nat) : Prop :=
  (b.queue q).live = true ∧ (b.queue q).notify = false ∧ b.hostReady (b.queue q).fid

/-- The completion of entry `idx` of queue `q`, written over its descriptor at `base + 64 * idx`
with the requester ID of the queue's function (R249, R262). -/
def doneWrite (b : Block) (q idx : Nat) (desc : Bytes) (status : Nat) (result : Bytes) : Out :=
  .hostWrite (fidLink (b.queue q).fid) (b.queue q).fid (b.queue q).pasid false
    ((b.queue q).base + 64 * idx) (mkCompletion desc status result b.ftime)

/-- Entry `idx` of queue `q` completes between `s` and `t`; of the queues only `q` changes, and of it
only the list of what is outstanding. -/
def completesEntry (q idx : Nat) (desc : Bytes) (status : Nat) (result : Bytes) (s t : Block) : Prop :=
  t.out = s.out ++ [doneWrite s q idx desc status result] ∧
    t.queue q = { s.queue q with
      outstanding := (s.queue q).outstanding.filter fun i => !(i == idx) } ∧
    ∀ k, k ≠ q → t.queue k = s.queue k

/-! ## Packets -/

/-- Delivered packet `i` is `a`, of this format and kind; it reaches connection `c`, which is ACTIVE
and in the cache, and the partition checks pass (R119, R125, R126, R130). -/
abbrev Block.arrives (b : Block) (i format kind : Nat) (a : Arrival) (c : Nat) : Prop :=
  b.live = true ∧ b.quiet ∧ b.delivery[i]? = some a ∧ a.bad = false ∧ a.passed = none ∧ a.holds = false ∧
    a.pkt.format = format ∧ a.pkt.kind = kind ∧ b.contextFor a.pkt = some c ∧ (b.ctx c).st = .active ∧
    (b.ctx c).spilled = false ∧ b.fencedOut a.pkt = false

/-- The packet's PSNs are new to connection `c` (R135), and accepting it makes no ACK fall due
(R139). -/
abbrev Block.takesSilently (b : Block) (a : Arrival) (c : Nat) : Prop :=
  (b.ctx c).window a.pkt.psn (reqPsns a.pkt) = .fresh ∧ a.pkt.ackReq = false ∧
    (b.ctx c).ackCount + 1 < b.obj (0x2030 + ctxLink c) 1

/-- `key` names region `r` of index key `k` on host link `hl`, which is in the cache, belongs to `pd`
and gives the right over `n` bytes at `addr` (R152, R154, R156). -/
abbrev Block.grants (b : Block) (hl key pd right addr n k : Nat) (r : Reg) : Prop :=
  b.keyCheck hl key = .region k r ∧ r.spilled = false ∧ r.pd = pd ∧ bit r.rights right = true ∧
    r.covers addr n = true

/-- The oldest PSN that connection `x` waits an answer for, or the next one to be used (R132). -/
def Ctx.oldest (x : Ctx) : BitVec 32 :=
  match x.unans with
  | u :: _ => u.psn
  | [] => x.nextPsn

/-- Connection `c` is ACTIVE and in the cache, and its partition lets it send (R118, R125, R130). -/
abbrev Block.ctxSends (b : Block) (c : Nat) : Prop :=
  (b.ctx c).st = .active ∧ (b.ctx c).spilled = false ∧ b.mayInject (b.ctx c) = true

/-- Operation `n`, which was `o`, has sent its next new packet `k`: it waits at the injection point under the
connection's next PSNs, which are unanswered from now on behind those that were (R102, R132, R133); of the
connections and the operations no other changes. -/
def sendsNew (n : Nat) (o : Op) (k : Pkt) (s t : Block) : Prop :=
  t.injQ = Tbl.set [] s.injQ 0 (queueOf s.injQ 0 ++ [k]) ∧
    k.psn = (s.ctx o.ctx).nextPsn ∧ k.dstFa = (s.ctx o.ctx).remoteFa % 2 ^ 32 ∧
    (t.ctx o.ctx).nextPsn = (s.ctx o.ctx).nextPsn + BitVec.ofNat 32 (o.pktPsns o.next) ∧
    (∃ l : List Unans, (t.ctx o.ctx).unans = (s.ctx o.ctx).unans ++ l ∧ (∀ u ∈ l, u.op = n) ∧
      l.map (·.psn) = (List.range (o.pktPsns o.next)).map
        (fun i => (s.ctx o.ctx).nextPsn + BitVec.ofNat 32 i)) ∧
    (∃ o', t.op n = some o' ∧ o'.started = true ∧ o'.allSent = o.lastAt o.next ∧
      o'.next = o.next + (if o.kind = .get ∨ o.kind = .pull then o.pktLen o.next else 4096)) ∧
    (∀ c, c ≠ o.ctx → t.ctx c = s.ctx c) ∧ ∀ m, m ≠ n → t.op m = s.op m

/-- A write of `n` bytes at `addr` of the local buffer that `key` of host link `hl` names can be issued now,
into the `HOST` region `r`: the region is in the cache, and no translation is being invalidated (R154, R158,
R204). -/
abbrev Block.landsIn (b : Block) (hl key addr n k : Nat) (r : Reg) : Prop :=
  b.keyRegion hl key = some (k, r) ∧ r.spilled = false ∧ r.pool = false ∧
    (b.link (fidLink r.fid)).invWait = [] ∧ b.canIssue r.fid r.pasid (r.dma addr) n = true

/-- The payload of unanswered PSN `u` of operation `o` can be read again now from region `r`, which is in the
cache, and host staging has room for it (R142, R154, R158, R213). -/
abbrev Block.rereads (b : Block) (o : Op) (u : Unans) (k : Nat) (r : Reg) : Prop :=
  b.keyRegion o.hl o.lkey = some (k, r) ∧ r.spilled = false ∧ b.stagingRoom o u.len = true ∧
    b.canIssue r.fid r.pasid (r.dma (o.addr + u.off)) u.len = true

/-- `d` is the only read of this fill, it is on its link, and no invalidation waits there (R130, R202,
R204). -/
abbrev Block.fillsAlone (b : Block) (region : Bool) (k : Nat) (d : DmaReq) : Prop :=
  b.dma.filter (fun e => e.purpose == .fill region k) = [d] ∧ b.onLink d = true ∧
    (b.link d.hl).invWait = []

/-- Delivered packet `i` is the first packet of a new message on connection `c`, a SEND of this kind for
matching context `m`: it passes the checks of R175, its message's turn has come, no entry of the in-flight
table is its or its successor's, and there is room for one (R180 to R182). -/
abbrev Block.opensMessage (b : Block) (i kind : Nat) (a : Arrival) (c m : Nat) : Prop :=
  b.arrives i 1 kind a c ∧ b.takesSilently a c ∧
    m = mctxKey (ctxLink c) (a.pkt.at_ 72 2) ∧
    b.sieveCheck (ctxLink c) (b.ep (faEp a.pkt.dstFa)).fid (b.ep (faEp a.pkt.dstFa)).pd a.pkt =
      stOk ∧
    a.pkt.msn = (b.ctx c).nextMatch ∧ b.msgKey c a.pkt.msn = none ∧
    b.msgKey c (a.pkt.msn + 1) = none ∧ b.msg b.nextOp = none ∧
    b.inflightRoom (b.mctx m).fid = true

/-- A response that `P` describes leaves for the other side: it waits at the injection point, or no
path to the node is valid and it is counted as dropped (R103). -/
def responds (P : Pkt → Prop) (s t : Block) : Prop :=
  (∃ k, P k ∧ t.injQ = Tbl.set [] s.injQ 1 (queueOf s.injQ 1 ++ [k])) ∨
    (t.injQ = s.injQ ∧ t.counter 538 = min (s.counter 538 + 1) counterMax)

/-! ## Queues -/

/-- Function `fid` runs: its host link is present, it is in no reset and in D0, and a VF is enabled
(R208, R220). -/
abbrev Block.functionRuns (b : Block) (fid : Nat) : Prop :=
  0 < linkWidth b.bifCode (fidLink fid) ∧ (b.fn fid).flr = false ∧ (b.fn fid).d3hot = false ∧
    (b.fn (fidOf (fidLink fid) 0)).d3hot = false ∧
    (fidFn fid = 0 ∨ ((b.link (fidLink fid)).vfEnable = true ∧
      fidFn fid ≤ (b.link (fidLink fid)).numVfs))

/-- A read of queue `q` has fallen due, and the bucket of its host link pays for it now: it holds a read for
each queue of the host link, or no other queue of it waits for one (R251 to R254). -/
abbrev Block.readsNow (b : Block) (q : Nat) : Prop :=
  b.live = true ∧ b.functionRuns (b.queue q).fid ∧ (b.queue q).live = true ∧
    (∃ u, (b.queue q).pollAt = some u ∧ u ≤ b.now) ∧
    1000000000 ≤ (b.link (b.queue q).hl).bucket ∧
    ((b.queues.filter fun e => e.2.hl == (b.queue q).hl).length * 1000000000 ≤
        (b.link (b.queue q).hl).bucket ∨
      ∀ e ∈ b.queues, e.1 ≠ q → e.2.hl = (b.queue q).hl → e.2.pollAt = none)

/-- The host link of function `fid` carries its requests, and no range of it lacks a translation (R158,
R204). -/
abbrev Block.linkOpen (b : Block) (fid : Nat) : Prop :=
  b.hostRuns (fidLink fid) = true ∧ (b.link (fidLink fid)).noXlat = []

/-- The only taken descriptor of queue `q` is `t`, of opcode `op`: untraced, its context not destroyed and
its check not failed when it was taken. The queue writes no notifications, and no other queue has a
descriptor that waits for an engine (R254, R255). -/
abbrev Block.headIs (b : Block) (q op : Nat) (t : Taken) : Prop :=
  b.live = true ∧ b.quiet ∧ (b.queue q).live = true ∧ b.functionRuns (b.queue q).fid ∧
    (b.queue q).notify = false ∧ (b.queue q).taken = [t] ∧ t.traced = false ∧ t.flushed = false ∧
    t.failed = none ∧ entOpcode t.bytes = op ∧ ∀ e ∈ b.queues, e.1 ≠ q → e.2.taken = []

/-- `DONE`, `STATUS` and the reserved bits of `CTRL` are 0, and so is `MCAST` unless `mcast` (R256, R261
checks 2 and 3). -/
abbrev headerClear (d : Bytes) (mcast : Bool) : Prop :=
  bits (fld d 0 4) 7 2 = 0 ∧ fld d 3 1 = 0 ∧ bits (entFlags d) 7 1 = 0 ∧ entMcast d = mcast

/-- The operation block's fields at these offsets, of these lengths, are 0 (R258, R259). -/
abbrev clearAt (d : Bytes) (l : List (Nat × Nat)) : Prop := ∀ x ∈ l, fld d x.1 x.2 = 0

/-- `CTX` of descriptor `d` names a context of queue `q`'s function that is ACTIVE and in the cache, and
whose PD is the queue's (R255, R261 checks 5 to 7). -/
abbrev Block.ctxServes (b : Block) (q : Nat) (d : Bytes) : Prop :=
  bits (fld d 4 4) 31 26 = 0 ∧ (b.ctx (bits (fld d 4 4) 25 0)).st = .active ∧
    (b.ctx (bits (fld d 4 4) 25 0)).fid = (b.queue q).fid ∧
    (b.ctx (bits (fld d 4 4) 25 0)).spilled = false ∧
    (b.ep (b.ctx (bits (fld d 4 4) 25 0)).localEp).pd = (b.queue q).pd

/-- Local key `key` of host link `hl` names region `r`, of index key `k`, which is usable and in the cache
(R152, R154). -/
abbrev Block.namesRegion (b : Block) (hl key k : Nat) (r : Reg) : Prop :=
  k = regKey hl (bits key 23 0) ∧ b.reg k = r ∧ r.live = true ∧ r.gen = bits key 31 24 ∧
    r.unusable = false ∧ r.spilled = false

/-- Local key `key` is valid for queue `q` and names a `HOST` region of its PD, not being deregistered,
with `right` where one is needed, over `n` bytes at `addr` (R152, R157). -/
abbrev Block.bufferFor (b : Block) (q key addr n : Nat) (right : Option Nat) (k : Nat) (r : Reg) : Prop :=
  b.namesRegion (b.queue q).hl key k r ∧ bits key 23 0 < (b.link (b.queue q).hl).regPantry.count ∧
    bits key 31 24 ≠ 0 ∧ r.closing = false ∧ r.pool = false ∧ r.pd = (b.queue q).pd ∧
    (∀ j, right = some j → bit r.rights j = true) ∧ r.start ≤ addr ∧ addr + n ≤ r.start + r.length

/-- The first `n` bytes of payload of the head descriptor, at `addr` of region `r`, can be read now: the
link carries the read, and host staging has room for it beside what it holds (R158, R213, R216). -/
abbrev Block.payloadReads (b : Block) (q : Nat) (r : Reg) (n : Nat) : Prop :=
  b.linkOpen r.fid ∧ b.op b.nextOp = none ∧ (∀ d ∈ b.dma, ∀ off, d.purpose ≠ .payload b.nextOp off) ∧
    b.stagedBytes (fun o => o.hl == (b.queue q).hl) + n ≤ b.quota (b.queue q).hl 15 * 1024 ∧
    b.stagedBytes (fun o => o.fid == (b.queue q).fid) + n ≤
      b.cap (b.queue q).fid 0x2C (b.quota (b.queue q).hl 15) * 1024

/-- `CONTEXT_ID` of descriptor `d` names a matching context of queue `q`'s function and PD, and its
posted-receive list has room for an entry (R176, R187, R213, R216). -/
abbrev Block.listServes (b : Block) (q : Nat) (d : Bytes) : Prop :=
  (b.mctx (mctxKey (b.queue q).hl (fld d 32 2))).live = true ∧
    (b.mctx (mctxKey (b.queue q).hl (fld d 32 2))).fid = (b.queue q).fid ∧
    (b.mctx (mctxKey (b.queue q).hl (fld d 32 2))).pd = (b.queue q).pd ∧
    b.postedUse (fun _ k => k / 2 ^ 16 == fidLink (b.queue q).fid) + 1 ≤
      b.quota (fidLink (b.queue q).fid) 10 ∧
    b.postedUse (fun m _ => m.fid == (b.queue q).fid) + 1 ≤
      b.cap (b.queue q).fid 0x18 (b.quota (fidLink (b.queue q).fid) 10)

/-- The descriptor leaves the taken ones of queue `q`, a poll falls due where none was (R251), and no
other queue changes; of the functions, only the queues that an engine and an agent served last do
(R254). -/
def headLeaves (q : Nat) (s t : Block) : Prop :=
  (t.queue q).taken = [] ∧ (t.queue q).c = (s.queue q).c ∧
    ((s.queue q).pollAt = none → (t.queue q).pollAt = some s.now) ∧
    (∀ k, k ≠ q → t.queue k = s.queue k) ∧
    ∀ f, t.fn f = { s.fn f with lastIssued := (t.fn f).lastIssued, lastAgent := (t.fn f).lastAgent }

/-- One read is taken from the bucket of the host link of queue `q`, and its turns go on (R253, R254); no
other register of a host link or a function changes. -/
def readPaid (q : Nat) (s t : Block) : Prop :=
  (t.link (s.queue q).hl).bucket = (s.link (s.queue q).hl).bucket - 1000000000 ∧
    (∀ l, t.link l = { s.link l with bucket := (t.link l).bucket, lastFn := (t.link l).lastFn }) ∧
    (∀ l, l ≠ (s.queue q).hl → t.link l = s.link l) ∧
    ∀ f, t.fn f = { s.fn f with lastQ := (t.fn f).lastQ }

/-- Operation `o` of kind `kind` and `len` bytes is the descriptor `t` of queue `q` (R258). -/
def opFor (q : Nat) (t : Taken) (kind : OpKind) (len : Nat) (o : Op) : Prop :=
  o.kind = kind ∧ o.len = len ∧ o.q = q ∧ o.idx = t.idx ∧ o.desc = t.bytes ∧
    o.started = false ∧ o.allSent = false ∧ o.ctx = bits (fld t.bytes 4 4) 25 0 ∧
    o.addr = fld t.bytes 40 8 ∧ o.remoteAddr = fld t.bytes 16 8 ∧ o.rkey = fld t.bytes 24 4

/-! ## Pours -/

/-- The steps that `d` names as a dependency of the next step of pour `p` have completed (R273, R286). -/
abbrev Pour.depDone (p : Pour) (d : Nat) : Prop := d = 0 ∨ ∃ x ∈ p.doneSteps, x.1 = p.next - d

/-- The only pour of mould index `i` is `p`, armed; its next step is `t`, of kind `sop`: no step is running,
its dependencies have completed and no poisoned word holds it (R286, R399). -/
abbrev Block.stepIs (b : Block) (i sop : Nat) (p : Pour) (t : Step) : Prop :=
  b.live = true ∧ b.quiet ∧ (b.mould i).pours = [p] ∧ p.armed = true ∧
    p.next < (b.mould i).stepCount ∧ (b.mould i).step p.next = t ∧ t.sop = sop ∧
    p.depDone t.depA ∧ p.depDone t.depB ∧ b.readsBad i t = false ∧ p.next ∉ (b.mould i).badSteps ∧
    p.running = [] ∧
    (b.fn p.fid).trace.stepPending = none

/-- No packet that this node sent for step `k` of the pour is still here: at the injection point, in an
output queue, or being sent (R274). -/
abbrev Block.allGone (b : Block) (i : Nat) (seq : BitVec 32) (k : Nat) : Prop :=
  (∀ e ∈ b.injQ, ∀ p ∈ e.2, ¬(p.isMould = true ∧ p.mouldIdx = i ∧ p.pourSeq = seq ∧ p.mouldStep = k)) ∧
  (∀ e ∈ b.copying, ∀ c, e.2 = some c → c.src.row = 16 →
    ¬(c.pkt.isMould = true ∧ c.pkt.mouldIdx = i ∧ c.pkt.pourSeq = seq ∧ c.pkt.mouldStep = k)) ∧
  (∀ e ∈ b.madeQ, ∀ x ∈ e.2,
    ¬(x.1.isMould = true ∧ x.1.mouldIdx = i ∧ x.1.pourSeq = seq ∧ x.1.mouldStep = k)) ∧
  (∀ e ∈ b.outQ, ∀ x ∈ e.2, x.src.row = 16 →
    ¬(x.pkt.isMould = true ∧ x.pkt.mouldIdx = i ∧ x.pkt.pourSeq = seq ∧ x.pkt.mouldStep = k)) ∧
  (∀ e ∈ b.ports, ∀ bs x, e.2.opened = some (bs, x) → x.row = 16 →
    ¬(x.pkt.isMould = true ∧ x.pkt.mouldIdx = i ∧ x.pkt.pourSeq = seq ∧ x.pkt.mouldStep = k))

/-- Every byte of step `k`, of `len` bytes, has been credited to pour `p`; a step of no bytes has met its
packet (R289, R290). -/
abbrev Pour.met (p : Pour) (k len : Nat) : Prop :=
  (len = 0 ∧ k ∈ p.zeroSeen) ∨ (len ≠ 0 ∧ len ≤ Tbl.get 0 p.credit k)

/-- What completes the running step `r` of pour `p` has come about, by its kind (R274): packets sent have
left, bytes to be received or combined have come, and any other step has done its work. -/
abbrev Block.stepMet (b : Block) (i : Nat) (p : Pour) (r : StepRun) : Prop :=
  ((((b.mould i).step r.step).sop = sopSend ∧ b.allGone i p.seq r.step) ∨
   (((b.mould i).step r.step).sop = sopRecv ∧ p.met r.step ((b.mould i).step r.step).len) ∨
   (((b.mould i).step r.step).sop = sopMcast ∧ b.stepRoot ((b.mould i).step r.step) = false ∧
      p.met r.step ((b.mould i).step r.step).len) ∨
   (((b.mould i).step r.step).sop = sopMcast ∧ b.stepRoot ((b.mould i).step r.step) = true ∧
      b.allGone i p.seq r.step) ∨
   (((b.mould i).step r.step).sop = sopGather ∧ p.met r.step ((b.mould i).step r.step).len ∧
      b.allGone i p.seq r.step) ∨
   ((((b.mould i).step r.step).sop = sopNop ∨ ((b.mould i).step r.step).sop = sopCopyIn ∨
      ((b.mould i).step r.step).sop = sopCopyOut ∨ ((b.mould i).step r.step).sop = sopCombine) ∧
      r.done = true))

/-- Engine `n`, of a live region, is in service and runs fewer than four pours, and host link `hl` has
fewer pours armed than its share (R19, R22, R285, R286). -/
abbrev Block.engineFor (b : Block) (n hl : Nat) : Prop :=
  n < 16 ∧ bit b.regions (n / 4) = true ∧ n % 4 ∉ (b.fltOf (blkCluster (n / 4) 6)).retiredUnits ∧
    b.armedCount (fun q => q.engine == n) < 4 ∧
    b.armedCount (fun q => q.hl == hl) < b.pourShare hl

/-- The next step of the pour starts; `done` says that its own work is done at once. -/
def stepStarts (i : Nat) (p : Pour) (done : Bool) (s t : Block) : Prop :=
  t.mould i = { s.mould i with
    pours := [{ p with next := p.next + 1, running := [⟨p.next, done, s.ftime⟩] }] } ∧
  ∀ j, j ≠ i → t.mould j = s.mould j

/-- The packets of a step join privileged VC `pvc` at the injection point: as many as R287 cuts, all of
this pour, with this `MODE`. -/
def stepSends (i pvc n mode : Nat) (seq : BitVec 32) (s t : Block) : Prop :=
  ∃ l : List Pkt, l.length = n ∧ queueOf t.injQ (8 + pvc) = queueOf s.injQ (8 + pvc) ++ l ∧
    (∀ k ∈ l, k.isMould = true ∧ k.mouldIdx = i ∧ k.pourSeq = seq ∧ k.mode = mode) ∧
    ∀ v, v ≠ 8 + pvc → queueOf t.injQ v = queueOf s.injQ v

/-! ## Commands and lock cells of a function -/

/-- Function `fid` can start a command whose arguments lie in these fields (R210, R225, R234). -/
abbrev Block.cmdReady (b : Block) (fid : Nat) (fields : List Nat) : Prop :=
  b.live = true ∧ b.quiet ∧ b.fnUp fid = true ∧ (b.fn fid).wait = none ∧
    (b.fn fid).argsOk fields = true

/-- A command of code `code` has ended with `status` (R234), and no other function's registers
change. -/
def cmdEnded (fid code status : Nat) (s t : Block) : Prop :=
  (t.fn fid).status = status ∧ (t.fn fid).lastCode = code ∧ (t.fn fid).wait = none ∧
    (t.fn fid).args = (s.fn fid).args ∧ ∀ g, g ≠ fid → t.fn g = s.fn g

/-- Function `fid` writes `w`, whose `OP` is `op`, to lock cell `cell` of its own host link, with no
reserved bit set (R335, R336). -/
abbrev Block.lockReach (b : Block) (fid cell w op : Nat) : Prop :=
  b.live = true ∧ b.quiet ∧ b.fnUp fid = true ∧ b.cellOf (fidLink fid) cell = true ∧
    lockWordOk w = true ∧ lockOp w = op

/-- Of the block only cell `cell`, counters and the count of free values change. -/
def lockOnly (cell : Nat) (s t : State) : Prop :=
  t = { s with locks := t.locks, counters := t.counters, fresh := t.fresh } ∧
    ∀ c, c ≠ cell → t.lock c = s.lock c

/-- Cell `cell` has been granted to `master` (R338). -/
def lockGranted (cell master : Nat) (s t : Block) : Prop :=
  (t.lock cell).held = true ∧ (t.lock cell).owner = master ∧
    (t.lock cell).grantSeq = (s.lock cell).grantSeq + 1 ∧ ∀ c, c ≠ cell → t.lock c = s.lock c

/-- A request of `master` for cell `cell` has been refused: that is all that the cell records, and it is
counted (R337, R341). -/
def lockRefused (cell master : Nat) (s t : State) : Prop :=
  t.lock cell = { s.lock cell with refused := (t.lock cell).refused } ∧
    master ∈ (t.lock cell).refused ∧ t.counter 801 = min (s.counter 801 + 1) counterMax ∧
    lockOnly cell s t

/-- Beside cells and counters, vector `v` of function `fid` is all that moves: it is sent where it may be,
else its pending bit is set, and for a function that is not there nothing happens (R207, R338). -/
def vectorGoes (fid v : Nat) (s t : State) : Prop :=
  t = { s with locks := t.locks, counters := t.counters, out := t.out, fns := t.fns } ∧
    (s.fnLive fid = true → (s.fn fid).vectorOpen v = true → s.hostRuns (fidLink fid) = true →
      s.asleep fid = false → t.out = s.out ++ [.msix (fidLink fid) fid v] ∧ t.fns = s.fns) ∧
    (s.fnLive fid = true →
      ¬((s.fn fid).vectorOpen v = true ∧ s.hostRuns (fidLink fid) = true ∧
        s.asleep fid = false) →
      t.out = s.out ∧ t.fn fid = { s.fn fid with pending := Tbl.set false (s.fn fid).pending v true } ∧
        ∀ g, g ≠ fid → t.fn g = s.fn g) ∧
    (s.fnLive fid = false → t.out = s.out ∧ t.fns = s.fns)

/-! ## Fault sources -/

/-- Source `src` of block `blk` exists and calls for no reaction: its mask is 0 (R393, R395). -/
abbrev Block.muted (b : Block) (blk src : Nat) : Prop :=
  (sourceInfo blk src).isSome = true ∧ b.reactOf blk src = 0

/-- Between `s` and `t` source `src` of block `blk` is recorded, with its unit, and captured where the
block's record is free (R394); no other block's record changes. -/
def flagged (blk src unit : Nat) (s t : Block) : Prop :=
  (t.fltOf blk).status = (s.fltOf blk).status ||| (1#64 <<< src) ∧
    ((s.fltOf blk).status = 0 → (t.fltOf blk).source = srcCode blk src unit ∧
      (t.fltOf blk).time = s.ftime) ∧
    ((s.fltOf blk).status ≠ 0 → (t.fltOf blk).source = (s.fltOf blk).source ∧
      (t.fltOf blk).more = min ((s.fltOf blk).more + 1) (2 ^ 32 - 1)) ∧
    ∀ k, k ≠ blk → t.fltOf k = s.fltOf k

/-! ## The dictionary -/

/-- Request `r`, of this `MTYPE`, is at the head of the queue with `rest` behind it; it passes orders 1 to
6 of R358, and no reply is waited for (R359). -/
abbrev Block.idpHead (b : Block) (r : IdpReq) (rest : List IdpReq) (mt : Nat) : Prop :=
  b.serves = true ∧ b.quiet ∧ b.loadWait = [] ∧ b.idpQ = r :: rest ∧ b.admission r = stOk ∧
    r.mtype = mt ∧ (r.auth = true → (b.seqOf r.principal).judge r.seq r.mac = .accept)

/-- Orders 7 to 9 of R358 let `r` through to catalogue row `row`, and so does the device's phase. -/
abbrev Block.idpObj (b : Block) (r : IdpReq) (row : ObjRow) : Prop :=
  objRows r.index ≠ [] ∧ objRow r.index r.sub = some row ∧
    row.access r.index r.principal (r.mtype != mtRead) = stOk ∧ b.fits r row.ty = true ∧
    b.phaseAllows r = true

/-- The reply to `r` stands in the mailbox, or has gone out on the bus `r` came by where that runs; an
authenticated request has an authenticated reply (R349, R353, R355). -/
def answered (r : IdpReq) (st : Nat) (data : Bytes) (count : Nat) (xfer : Option Nat) (s t : Block) :
    Prop :=
  let body := r.reply r.auth st data count xfer
  let msg := if r.auth then body ++ idpMac ((s.keyOf r.principal).getD []) body else body
  match r.src with
  | .mailbox hl => (t.link hl).mbxReply = msg ∧ (t.link hl).mbxReplyLen = msg.length ∧
      (t.link hl).mbxDone = true ∧ (t.link hl).mbxBusy = false
  | .t1s _ => s.mnetUp = true → t.out = s.out ++ s.onWire r.src msg ∧ t.mnetWait = []
  | .i3c _ => s.mnetUp = true → t.out = s.out ++ s.onWire r.src msg ∧ t.mnetWait = []

/-- The three keyed principals have a floor each, and `H` of none is above it (R356, R357). -/
abbrev Block.floorsHold (b : Block) : Prop :=
  b.flash.floors.length = 3 ∧ ∀ p, p < 3 → (b.seqOf p).high ≤ nth 0 b.flash.floors p

/-! ## Start-up -/

/-- The next start-up meets a flash that answers, fuses that check, lanes that work and resistors that are in
range (R454, R455, R503). -/
abbrev Luck.good (l : Luck) : Prop :=
  l.flashSilent = false ∧ l.fuseCheck = false ∧ l.lanes = 0 ∧ l.rext = 0

/-- Nothing of what the block held before a package reset is left: connections, protection, queues,
lock cells, moulds, transfers and the router's packets are gone (R449, R453). -/
def wipedClean (t : Block) : Prop :=
  t.ctxs = [] ∧ t.ops = [] ∧ t.dma = [] ∧ t.eps = [] ∧ t.pds = [] ∧ t.regs = [] ∧ t.pool = [] ∧
    t.mctxs = [] ∧ t.inflight = [] ∧ t.queues = [] ∧ t.locks = [] ∧ t.moulds = [] ∧ t.gathers = [] ∧
    t.rxQ = [] ∧ t.outQ = [] ∧ t.injQ = [] ∧ t.delivery = [] ∧ t.paths = [] ∧ t.sprue = [] ∧
    t.xfers = [] ∧ t.idpQ = []

end Sys2Proof.Machine

namespace Sys2Proof

/-- The command is work of the data, control or mould plane, or a write of a host to a register that such
work rests on (R404). -/
def Instr.works : Instr → Bool
  | .packetForward _ _ | .reqInject _ | .gatherWait _ _ | .sendEager _ | .sendRts _ | .putPacket _
  | .getReq _ | .getResp _ | .atomicPacket _ | .atomicResp _ | .mcastPut _ | .ack _ | .nak _
  | .rdvFin _ | .unroutableReport _ | .deliveryReport _ | .poll _ _ | .nop _ | .send _ | .put _
  | .putMcast _ | .get _ | .atomic _ | .localFence _ | .postRecv _ | .postOverflow _ | .pour _
  | .pourArm _ | .mouldNopStep _ | .copyIn _ | .copyOut _ | .mouldSendStep _ | .recv _ | .combine _
  | .gather _ | .mcast _ | .mouldData _ | .gatherRecordGrant _ _ | .breakMsg _ | .pdCreate _ _
  | .pdDestroy _ _ | .epCreate _ _ | .epDestroy _ _ | .epMcastBind _ _ | .ctxCreate _ _
  | .ctxConnect _ _ | .ctxDestroy _ _ | .ctxQuery _ _ | .regRegister _ _ | .regDeregister _ _
  | .mctxCreate _ _ | .mctxDestroy _ _ | .recvCancel _ _ | .qCreate _ _ | .pantryInstall _ _
  | .pantryRemove _ _ | .dumpStart _ _ | .dumpStop _ _ | .ctrProgram _ _ | .traceStart _ _
  | .traceStop _ _ | .stepStart _ _ | .stepStop _ _ | .acquire _ _ _ _ | .tryLock _ _ _ _
  | .release _ _ _ _ | .cancel _ _ _ _ | .claim _ _ _ _ | .forceRelease _ _ _ _ | .setMode _ _ _ _
  | .qWake _ _ _ | .tgRebind _ _ | .mailboxGo _ _ | .update (.fn _ _) _ | .dumpPass _ _
  | .bwWindowEnd | .scrub _ _ _ _ _ | .regionRetire _ | .fltForce _ _ => true
  | _ => false

/-- The command is a package reset that leaves quench, or brings the device up after one (R404, R451). -/
def Instr.resetsPackage : Instr → Bool
  | .powerOnReset _ | .porstAssert _ | .porstRelease _ | .railsInRange _
  | .chipReset .chipResetWrite => true
  | _ => false

end Sys2Proof
end

