-- ==== Sys2Proof/Certificates/Slice0/Obligations.lean ====
section
/-! DEFINITION. The statements for the provers, one definition each. Every clause about a command
names a state it starts from by conditions on the state and the operands alone, says what next state
the command answers, and what it leaves: `t = { s with … }` lists every field that may differ. -/

open Sys2Proof Sys2Proof.Machine

/-! ## The link layer -/

/-- R83: what ends in EXCHANGE and what ends in TRAINING. MODE_TRAINED puts a training port into
EXCHANGE with the mode of its row and lanes, where the port has no mode disagreement still to tell for
1 µs; TRAINING_RESTART, EXCHANGE_TIMEOUT, LOCK_LOST and
FAILED_TIMEOUT put the port into TRAINING with the settings it loads there. -/
def Obligations.LinkTraining : Prop :=
  (∀ (s : State) (p : PortId) (row : Fin 9) (lanes : Fin 16),
    s.portLive p = true → (s.port p).st = .training → (s.port p).mayTrain row lanes = true →
    (∀ u, (s.port p).refuse4At = some u → u + 1000 ≤ s.now) →
    ∃ t, exec (.modeTrained p row lanes) s = .next t ∧
      (t.port p).st = .exchange ∧ (t.port p).since = s.now ∧ (t.port p).peer = none ∧
      modeLanes (t.port p).mode = lanes.val ∧ modeRate (t.port p).mode = 2 - row.val / 3 ∧
      portOnly p s.toBlock t.toBlock ∧ t.pending = s.pending) ∧
  (∀ (s : State) (p : PortId),
    s.live = true → (s.port p).st = .training → (s.port p).since + 1000000 ≤ s.now →
    ∃ t, exec (.trainingRestart p) s = .next t ∧ entersTraining p s t ∧
      (t.port p).trainAttempts = (s.port p).trainAttempts + 1) ∧
  (∀ (s : State) (p : PortId),
    s.live = true → (s.port p).st = .exchange → (s.port p).since + 1000000 ≤ s.now →
    ∃ t, exec (.exchangeTimeout p) s = .next t ∧ entersTraining p s t) ∧
  (∀ (s : State) (p : PortId),
    s.live = true → (s.port p).st = .exchange ∨ (s.port p).st = .refused →
    ∃ t, exec (.lockLost p) s = .next t ∧ entersTraining p s t) ∧
  (∀ (s : State) (p : PortId),
    s.live = true → (s.port p).st = .failed →
    (s.port p).since + max (s.portObj p 6) (32 * (s.port p).peerHbUnits) ≤ s.now →
    (∀ u, (s.port p).oosWhileFailed = some u →
      u + max (s.portObj p 6) (32 * (s.port p).peerHbUnits) ≤ s.now) →
    ∃ t, exec (.failedTimeout p) s = .next t ∧ entersTraining p s t)

/-- R64, R65, R67, R70, R74, R77, R82, R90: HEARTBEAT, CAPX_SEND, TIME_FLIT_SEND, OOS_FLIT_SEND and
FILL_FLIT_SEND each send one flit of their type, with the port's acknowledgement and credit limits;
DATA_FLIT_SEND sends 15 grains of the packet under way under the next `SEQ` and keeps the flit in
the replay window; REPLAY_TIMEOUT sends every unacknowledged flit again, oldest first, with the same
`SEQ` and payload, and counts one replay. None touches another port, or anything beside the ports
but their counters. -/
def Obligations.LinkSending : Prop :=
  (∀ (s : State) (p : PortId),
    s.linkRuns p = true → (s.port p).sentHbAt + (s.port p).loaded.hbPeriod ≤ s.now →
    ∃ t f, exec (.heartbeat p) s = .next t ∧ sendsFlit p f s t ∧ f.ftype = 2 ∧
      f.seq = (s.port p).nextSeq ∧ (t.port p).sentHbAt = s.now ∧ (t.port p).st = (s.port p).st) ∧
  (∀ (s : State) (p : PortId),
    s.portLive p = true →
    (s.port p).st = .exchange ∨ (s.port p).st = .refused ∨ (s.port p).st = .retrain →
    ∃ t f, exec (.capxSend p) s = .next t ∧ sendsFlit p f s t ∧ f.ftype = 4 ∧
      f.payload = (s.ownRecord p).encode ∧ (s.ownRecord p).nodeId = s.nodeId ∧
      (s.ownRecord p).peerSeen = (s.port p).peer.isSome ∧
      (s.ownRecord p).resume = decide ((s.port p).st = .retrain) ∧
      (s.ownRecord p).refuse = (s.port p).myRefuse ∧
      (t.port p).lastCapx = some s.now ∧ (t.port p).sentHbAt = s.now ∧
      (t.port p).st = (s.port p).st) ∧
  (∀ (s : State) (p : PortId),
    s.portLive p = true → (s.port p).st = .active → (s.port p).timeOk = true →
    (s.port p).lastTimeFlit + s.timePeriod ≤ s.now →
    ∃ t f, exec (.timeFlitSend p) s = .next t ∧ sendsFlit p f s t ∧ f.ftype = 3 ∧
      fld f.payload 0 8 = s.time.now % 2 ^ 64 ∧ fld f.payload 8 8 = (s.port p).tRxEcho % 2 ^ 64 ∧
      fld f.payload 16 8 = (s.port p).tTxEcho % 2 ^ 64 ∧
      fld f.payload 25 1 = s.time.stratum % 256 ∧
      (t.port p).lastTimeFlit = s.now ∧ (t.port p).st = .active) ∧
  (∀ (s : State) (p : PortId),
    s.quench = true → (s.port p).st = .oos → s.domOn (elSerdes p) = true →
    s.domainRuns p = true →
    ∃ t f, exec (.oosFlitSend p) s = .next t ∧ sendsFlit p f s t ∧ f.ftype = 6 ∧
      (t.port p).st = .oos) ∧
  (∀ (s : State) (p : PortId),
    s.linkRuns p = true → (s.port p).st ≠ .active ∨ (s.port p).pauseTarget ≠ none →
    ∃ t, exec (.fillFlitSend p) s = .next t ∧ t.out = s.out ++ [.flit p fillFlit] ∧
      t = { s with out := t.out }) ∧
  (∀ (s : State) (p : PortId) (bs : Bytes) (k : TxPkt),
    s.portLive p = true → (s.port p).st = .active → (s.port p).pauseTarget = none →
    (s.port p).pauseOwed = none → (s.port p).unacked.length < s.replayDepth p → (s.port p).opened = some (bs, k) →
    240 < bs.length → bs.length % 16 = 0 → s.quench = false →
    ∃ t f, exec (.dataFlitSend p) s = .next t ∧
      t.out = s.out ++ [.flit p f.encode] ∧ carriesPort (s.port p) f ∧
      f.ftype = 1 ∧ f.seq = (s.port p).nextSeq ∧ f.start = 15 ∧ f.used = 15 ∧
      f.payload = bs.take 240 ∧
      (t.port p).nextSeq = (s.port p).nextSeq + 1 ∧
      (t.port p).opened = some (bs.drop 240, k) ∧
      (t.port p).window = (s.port p).window ++
        [⟨(s.port p).nextSeq, 0, 15, 15, bs.take 240, s.now⟩] ∧
      t.counter (portCtr p 0) = min (s.counter (portCtr p 0) + 240) counterMax ∧
      t.counter (portCtr p 2) = min (s.counter (portCtr p 2) + 1) counterMax ∧
      t = { s with ports := t.ports, out := t.out, counters := t.counters,
                   throttled := t.throttled } ∧
      ∀ q, q ≠ p.val → t.port q = s.port q) ∧
  (∀ (s : State) (p : PortId),
    s.portLive p = true → (s.port p).st = .active → (s.port p).pauseTarget = none →
    s.replayDue p = true →
    ∃ (t : State) (l : List Flit), exec (.replayTimeout p) s = .next t ∧
      t.out = s.out ++ l.map (fun f => Out.flit p f.encode) ∧
      l.map (·.seq) = (s.port p).unacked.map (·.seq) ∧
      l.map (·.payload) = (s.port p).unacked.map (·.payload) ∧
      (∀ f ∈ l, f.ftype = 1 ∧ f.ack = (s.port p).expect - 1) ∧
      (t.port p).replayed = true ∧ (t.port p).nextSeq = (s.port p).nextSeq ∧
      (t.port p).window.map (·.seq) = (s.port p).window.map (·.seq) ∧
      t.counter (portCtr p 4) = min (s.counter (portCtr p 4) + 1) counterMax ∧
      t = { s with ports := t.ports, out := t.out, counters := t.counters } ∧
      ∀ q, q ≠ p.val → t.port q = s.port q)

/-- R64, R69, R409: FLIT_RECEIVED faults on what is not 256 bytes, and takes the rest: a bad flit is
counted and starts discarding, a filler flit with a good CRC changes nothing but the corrected symbols that
are counted lane by lane, nothing is received where the port does not hear (that this takes the corrected
symbols in as well is the model's reading, log 151), a heartbeat renews the liveness
of the link, and a DATA flit in order advances the expected `SEQ` and queues the packets it
completes. -/
def Obligations.LinkReceive : Prop :=
  (∀ (s : State) (p : PortId) (raw : Bytes) (ok : Bool) (corr : List Nat), raw.length ≠ 256 →
    exec (.flitReceived p raw ⟨ok, corr⟩) s = .fault .notAFlit) ∧
  (∀ (s : State) (p : PortId) (raw : Bytes) (ok : Bool) (corr : List Nat), raw.length = 256 →
    s.quiet → s.quench = false → s.domainRuns p = true →
    (s.port p).st = .active ∨ (s.port p).st = .retrain → (ok && crcGood raw) = false →
    ∃ t, exec (.flitReceived p raw ⟨ok, corr⟩) s = .next t ∧
      t.counter (portCtr p 5) = min (s.counter (portCtr p 5) + 1) counterMax ∧
      t.port p = { s.port p with discarding := true } ∧
      t = { s with ports := t.ports, counters := t.counters } ∧
      ∀ q, q ≠ p.val → t.port q = s.port q) ∧
  (∀ (s : State) (p : PortId) (raw : Bytes) (corr : List Nat), raw.length = 256 → s.quiet →
    crcGood raw = true → (Flit.decode raw).ftype = 0 → s.hears p = true →
    ∃ t, exec (.flitReceived p raw ⟨true, corr⟩) s = .next t ∧ t = { s with counters := t.counters } ∧
      (∀ k < 4, t.counter (portCtr p (8 + k)) =
        min (s.counter (portCtr p (8 + k)) + nth 0 corr k) counterMax) ∧
      ∀ c, c < portCtr p 8 ∨ portCtr p 12 ≤ c → t.counter c = s.counter c) ∧
  (∀ (s : State) (p : PortId) (raw : Bytes) (ok : Bool) (corr : List Nat), raw.length = 256 → s.quiet →
    s.hears p = false → exec (.flitReceived p raw ⟨ok, corr⟩) s = .next s) ∧
  (∀ (s : State) (p : PortId) (raw : Bytes) (corr : List Nat), raw.length = 256 → s.quiet →
    s.quench = false →
    s.domainRuns p = true → (s.port p).st = .exchange → crcGood raw = true →
    (Flit.decode raw).ftype = 2 →
    ∃ t, exec (.flitReceived p raw ⟨true, corr⟩) s = .next t ∧
      t.port p = { s.port p with gotHbAt := s.now } ∧
      portOnly p s.toBlock { t.toBlock with counters := s.counters } ∧ t.pending = s.pending) ∧
  (∀ (s : State) (p : PortId) (raw : Bytes) (corr : List Nat) (g : Gathering), raw.length = 256 →
    s.quiet → s.quench = false → s.domainRuns p = true →
    (s.port p).st = .active ∨ (s.port p).st = .retrain → crcGood raw = true →
    (Flit.decode raw).ftype = 1 → (Flit.decode raw).seq = (s.port p).expect →
    gatherFlit (s.port p).partialRx (Flit.decode raw) = some g →
    ∃ t, exec (.flitReceived p raw ⟨true, corr⟩) s = .next t ∧
      (t.port p).expect = (s.port p).expect + 1 ∧ (t.port p).discarding = false ∧
      (t.port p).partialRx = g.cur ∧ (t.port p).gotHbAt = s.now ∧
      (t.port p).st = (s.port p).st ∧
      t.rxQ = g.done.foldl (fun q d => Tbl.set [] q (pv p d.1) (queueOf q (pv p d.1) ++ [d.2])) s.rxQ ∧
      t = { s with ports := t.ports, rxQ := t.rxQ, out := t.out, counters := t.counters } ∧
      ∀ q, q ≠ p.val → t.port q = s.port q)

/-- R83 to R86, R78: RETRAIN_COMPLETE makes the port ACTIVE in the mode it retrained to,
RETRAIN_LIMIT and LINK_DEAD fail a link that carries nothing, and LANE_FAIL retires a lane; in EXCHANGE
and REFUSED a port whose mode uses the lane goes through FAILED, and trains at its rate. That LANE_FAIL
alone is raised is the model's choice (log 132), and so is that a lane lost in EXCHANGE or REFUSED ends in
FAILED, where R83 has a row of its own for lost lock (log 155). -/
def Obligations.LinkFailure : Prop :=
  (∀ (s : State) (p : PortId) (r : CapRec),
    s.portLive p = true → (s.port p).st = .retrain → (s.port p).peer = some r → s.unheard 2 →
    modeLanes (s.port p).retrainTo &&& (s.port p).retiredLanes = 0 →
    ∃ t, exec (.retrainComplete p) s = .next t ∧
      (t.port p).st = .active ∧ (t.port p).since = s.now ∧
      (t.port p).mode = (s.port p).retrainTo ∧ (t.port p).gotHbAt = s.now ∧
      (t.port p).changeResult =
        (if (s.port p).changeResult = 1 then 2 else (s.port p).changeResult) ∧
      t = { s with ports := t.ports, out := t.out, counters := t.counters } ∧
      ∀ q, q ≠ p.val → t.port q = s.port q) ∧
  (∀ (s : State) (p : PortId), s.quiet → s.unheard 0 →
    s.live = true → (s.port p).st = .retrain → (s.port p).since + s.portObj p 8 ≤ s.now →
    (s.port p).windowPkts = [] → (s.port p).opened = none →
    (∀ v, v < 16 → queueOf s.outQ (pv p v) = []) →
    ∃ t, exec (.retrainLimit p) s = .next t ∧
      (t.port p).st = .failed ∧ (t.port p).since = s.now ∧ (t.port p).window = [] ∧
      (t.port p).nextSeq = 0 ∧ (t.port p).expect = 0 ∧
      (t.port p).changeResult =
        (if (s.port p).changeResult = 1 then 5 else (s.port p).changeResult) ∧
      t = { s with ports := t.ports, outQ := t.outQ, throttled := t.throttled } ∧
      ∀ q, q ≠ p.val → t.port q = s.port q) ∧
  (∀ (s : State) (p : PortId), s.quiet → s.unheard 0 →
    s.live = true → (s.port p).st = .active →
    (s.port p).gotHbAt + max (s.portObj p 6) (32 * (s.port p).peerHbUnits) ≤ s.now →
    s.reactOf (blkPort p) 9 = 0 → (s.port p).windowPkts = [] → (s.port p).opened = none →
    (∀ v, v < 16 → queueOf s.outQ (pv p v) = []) →
    ∃ t, exec (.linkDead p) s = .next t ∧
      (t.port p).st = .failed ∧ (t.port p).since = s.now ∧ (t.port p).window = [] ∧
      (t.fltOf (blkPort p)).status = (s.fltOf (blkPort p)).status ||| (1#64 <<< 9) ∧
      t = { s with ports := t.ports, outQ := t.outQ, throttled := t.throttled, flt := t.flt } ∧
      (∀ q, q ≠ p.val → t.port q = s.port q) ∧
      ∀ k, k ≠ blkPort p → t.fltOf k = s.fltOf k) ∧
  (∀ (s : State) (p : PortId) (lane : Fin 4), s.quiet →
    s.live = true → (s.port p).st ≠ .disabled → bit (s.port p).retiredLanes lane = false →
    ((s.port p).st ≠ .active ∧ (s.port p).st ≠ .exchange ∧ (s.port p).st ≠ .refused) ∨
      bit (modeLanes (s.port p).mode) lane = false →
    s.reactOf (blkPort p) 8 = 17 →
    ∃ t, exec (.laneFail p lane) s = .next t ∧
      (t.port p).retiredLanes = (s.port p).retiredLanes + 2 ^ lane.val ∧
      (t.port p).st = (s.port p).st ∧
      t.counter 1410 = min (s.counter 1410 + 1) counterMax ∧
      (t.fltOf (blkPort p)).status = (s.fltOf (blkPort p)).status ||| (1#64 <<< 8) ∧
      t.out = s.out ++ [.spInt (srcCode (blkPort p) 8 lane)] ∧
      t = { s with ports := t.ports, counters := t.counters, flt := t.flt, out := t.out } ∧
      (∀ q, q ≠ p.val → t.port q = s.port q) ∧
      ∀ k, k ≠ blkPort p → t.fltOf k = s.fltOf k) ∧
  (∀ (s : State) (p : PortId) (lane : Fin 4), s.quiet →
    s.live = true → (s.port p).st = .exchange ∨ (s.port p).st = .refused →
    bit (s.port p).retiredLanes lane = false → bit (modeLanes (s.port p).mode) lane = true → s.reactOf (blkPort p) 8 = 17 →
    ∃ t, exec (.laneFail p lane) s = .next t ∧
      (t.port p).retiredLanes = (s.port p).retiredLanes + 2 ^ lane.val ∧
      (t.port p).st = .failed ∧ (t.port p).since = s.now ∧
      (t.port p).rateHeld = some (modeRate (s.port p).mode) ∧
      t = { s with ports := t.ports, counters := t.counters, flt := t.flt, out := t.out } ∧
      ∀ q, q ≠ p.val → t.port q = s.port q)

/-! ## Fabric time -/

/-- R92, R93, R501, R502: TIME_PARENT_RESELECT takes the first usable parent port or loses time,
PPS_EDGE disciplines the root's time to the second, in quench too, and PPS_OUT sends one pulse for a second, but
none for one that has had its pulse and none while the TIME clock runs on FOSC. -/
def Obligations.FabricTime : Prop :=
  (∀ (s : State) (p : Nat), s.live = true → s.isRoot = false → s.bestParent = some p →
    s.time.parent ≠ some p →
    exec .timeParentReselect s =
      .next { s with time := { s.time with parent := some p, goodOffsets := 0 } }) ∧
  (∀ (s : State), s.live = true → s.isRoot = false → s.bestParent = none → s.unheard 11 →
    exec .timeParentReselect s =
      .next { s with time := { s.time with parent := none, synced := false, goodOffsets := 0 } }) ∧
  (∀ (s : State) (high v : Nat), s.phase = .running → s.isRoot = true → 100 ≤ high →
    (∀ u, s.time.lastPps = some u → u + 500000000 ≤ s.now) → s.time.nextSecond = some v →
    ∃ t, exec (.ppsEdge high) s = .next t ∧ t.time.now = v ∧ t.time.nextSecond = none ∧
      t.time.stratum = 0 ∧ t.time.lastPps = some s.now ∧ t.time.slew = 0 ∧
      (s.domainRuns clkTime = true → t.time.synced = true) ∧
      (∀ f, (s.fn f).dump.on = false → t.fn f = s.fn f) ∧
      t = { s with time := t.time, bwStepped := t.bwStepped, fns := t.fns, out := t.out }) ∧
  (∀ (s : State) (sec d high : Nat), s.phase = .running → s.isRoot = true → 100 ≤ high →
    (∀ u, s.time.lastPps = some u → u + 500000000 ≤ s.now) → s.time.nextSecond = none →
    s.time.now = sec * 1000000000 + d → d < 1000 →
    ∃ t, exec (.ppsEdge high) s = .next t ∧ t.time.lastOffset = d ∧ t.time.slew = -d ∧
      t.time.slewLeft = s.timePeriod ∧ t.time.now = s.time.now ∧ t.time.stratum = 0 ∧
      t = { s with time := t.time }) ∧
  (∀ (s : State), s.phase ≠ .held → s.phase ≠ .dead → s.time.lastPulse < s.time.now / 1000000000 →
    ∃ t, exec .ppsOut s = .next t ∧ t.time.lastPulse = s.time.now / 1000000000 ∧
      (∀ k, t.time.hasPulsed k = true ↔ s.time.hasPulsed k = true ∨
        (k = s.time.now / 1000000000 ∧ s.domainRuns clkTime = true)) ∧
      t.time = { s.time with lastPulse := t.time.lastPulse, pulsed := t.time.pulsed } ∧
      t.out = s.out ++ (if s.domainRuns clkTime ∧ s.time.hasPulsed (s.time.now / 1000000000) = false then
        [.ppsOut] else []) ∧ t = { s with time := t.time, out := t.out })

/-! ## Routing and injection -/

/-- R38, R39: PACKET_FORWARD takes a unicast general packet off the head of its VC. One that has a
hop left joins the output queue that the hop names, with `PTR` advanced by one and every byte but
the route control word as it was; one that has arrived at its node is delivered. -/
def Obligations.PacketForward : Prop :=
  (∀ (s : State) (row : Fin 17) (vc : Fin 16) (p : Pkt) (q v : Nat), s.live = true → s.quiet →
    s.copyHead row vc = none → (row.val = 16 → queueOf s.madeQ vc = []) → s.headOf row vc = some p →
    p.malformed (s.pvcLimit row) = false → p.mode = 0 → p.priv = false → s.hopOf row vc p = .out q v → s.inTurn row q v = true → s.portUp q = true →
    ∃ (t : State) (k : QPkt), exec (.packetForward row vc) s = .next t ∧
      queueOf t.outQ (pv q v) = queueOf s.outQ (pv q v) ++ [k] ∧
      k.pkt.hops = p.hops ∧ k.pkt.rest = p.rest ∧ k.pkt.ptr = p.ptr + 1 ∧ k.src.row = row.val ∧
      (∀ j, j ≠ pv q v → queueOf t.outQ j = queueOf s.outQ j) ∧
      (row.val = 16 → queueOf t.injQ vc = (queueOf s.injQ vc).drop 1) ∧
      (row.val ≠ 16 → queueOf t.rxQ (pv row vc) = (queueOf s.rxQ (pv row vc)).drop 1) ∧
      Tbl.get 16 t.rrIn (pv q v) = row.val ∧
      t = { s with injQ := t.injQ, rxQ := t.rxQ, outQ := t.outQ, nextPlace := t.nextPlace,
                   ports := t.ports, rrIn := t.rrIn, throttled := t.throttled,
                   gatherHeld := t.gatherHeld, counters := t.counters }) ∧
  (∀ (s : State) (row : Fin 17) (vc : Fin 16) (p : Pkt), s.live = true → s.quiet →
    s.copyHead row vc = none → (row.val = 16 → queueOf s.madeQ vc = []) → s.headOf row vc = some p →
    p.malformed (s.pvcLimit row) = false → p.mode = 0 → s.hopOf row vc p = .deliver →
    ∃ t, exec (.packetForward row vc) s = .next t ∧
      t.delivery = s.delivery ++ [{ pkt := p, row := row.val, vc := vc.val }] ∧
      (row.val = 16 → queueOf t.injQ vc = (queueOf s.injQ vc).drop 1) ∧
      (row.val ≠ 16 → queueOf t.rxQ (pv row vc) = (queueOf s.rxQ (pv row vc)).drop 1) ∧
      t = { s with injQ := t.injQ, rxQ := t.rxQ, delivery := t.delivery, nextPlace := t.nextPlace,
                   ports := t.ports, gatherHeld := t.gatherHeld })

/-- R105, R114: a packet that the router has made itself leaves the injection point for the port it goes to,
once the turn of the injection point has come there, and the round robin goes on from it. -/
def Obligations.MadeForward : Prop :=
  ∀ (s : State) (vc : Fin 16) (p : Pkt) (q : Nat) (l : List (Pkt × List Nat)), s.live = true → s.quiet →
    s.copyHead 16 vc = none → queueOf s.madeQ vc = (p, [q]) :: l → p.priv = false →
    s.portUp q = true → s.inTurn 16 q vc = true →
    ∃ (t : State) (k : QPkt), exec (.packetForward 16 vc) s = .next t ∧
      queueOf t.outQ (pv q vc) = queueOf s.outQ (pv q vc) ++ [k] ∧
      k.pkt.hops = p.hops ∧ k.pkt.rest = p.rest ∧ k.pkt.ptr = p.ptr ∧ k.src = ⟨16, none⟩ ∧
      (∀ j, j ≠ pv q vc → queueOf t.outQ j = queueOf s.outQ j) ∧ queueOf t.madeQ vc = l ∧
      (∀ j, j ≠ vc.val → queueOf t.madeQ j = queueOf s.madeQ j) ∧
      Tbl.get 16 t.rrIn (pv q vc) = 16 ∧
      t = { s with madeQ := t.madeQ, outQ := t.outQ, rrIn := t.rrIn, throttled := t.throttled,
                   counters := t.counters }

/-- R102, R115, R132 to R134, R142, R158, R513: REQ_INJECT sends the next packet of an operation on its
connection: the packet waits at the injection point with the connection's next PSN, which advances by the
PSNs the packet takes, and these are unanswered from then on, behind those that are already. Where the
operation has more payload to send, the read of its next piece starts. A PSN queued to be sent again goes
out under its own number and counts as a retransmission; a PUT with `MCAST` goes on its tree under the
tree's sequence number. -/
def Obligations.RequestInject : Prop :=
  (∀ (s : State) (n : Nat) (o : Op) (j : Nat) (pth : Path) (pl : Bytes), s.live = true → s.quiet →
    s.op n = some o → o.kind ≠ .mcast → o.resend = [] → o.allSent = false →
    s.ctxSends o.ctx → s.reqPath (s.ctx o.ctx) = .path j pth →
    o.payloadAt o.next = some pl → o.next ∉ o.spoilt →
    hasPayload o.kind.code = false ∨ o.lastAt o.next = true →
    ahead32 (s.ctx o.ctx).nextPsn (s.ctx o.ctx).oldest + o.pktPsns o.next ≤ 1024 →
    ∃ (t : State) (k : Pkt), exec (.reqInject n) s = .next t ∧ sendsNew n o k s.toBlock t.toBlock ∧
      t = { s with ctxs := t.ctxs, ops := t.ops, counters := t.counters, injQ := t.injQ }) ∧
  (∀ (s : State) (n : Nat) (o : Op) (j : Nat) (pth : Path) (pl : Bytes) (k : Nat) (r : Reg),
    s.live = true → s.quiet → s.op n = some o → o.kind = .eager ∨ o.kind = .put → o.resend = [] →
    o.allSent = false → s.ctxSends o.ctx → s.reqPath (s.ctx o.ctx) = .path j pth →
    o.payloadAt o.next = some pl → o.next ∉ o.spoilt → o.lastAt o.next = false →
    ahead32 (s.ctx o.ctx).nextPsn (s.ctx o.ctx).oldest + 1 ≤ 1024 →
    s.keyRegion o.hl o.lkey = some (k, r) → r.spilled = false →
    s.stagingRoom o (o.pktLen (o.next + 4096)) = true →
    s.canIssue r.fid r.pasid (r.dma (o.addr + (o.next + 4096))) (o.pktLen (o.next + 4096)) = true →
    ∃ (t : State) (p : Pkt) (d : DmaReq), exec (.reqInject n) s = .next t ∧ sendsNew n o p s.toBlock t.toBlock ∧
      t.dma = s.dma ++ [d] ∧ d.tag = s.nextTag ∧ d.kind = .read ∧ d.fid = r.fid ∧
      d.addr = r.dma (o.addr + (o.next + 4096)) ∧ d.len = o.pktLen (o.next + 4096) ∧
      d.purpose = .payload n (o.next + 4096) ∧
      t = { s with ctxs := t.ctxs, ops := t.ops, counters := t.counters, injQ := t.injQ,
                   regs := t.regs, dma := t.dma, nextTag := s.nextTag + 1 }) ∧
  (∀ (s : State) (n : Nat) (o : Op) (j : Nat) (pth : Path) (pl : Bytes) (psn : BitVec 32)
    (rest : List (BitVec 32)) (u : Unans), s.live = true → s.quiet →
    s.op n = some o → o.kind ≠ .mcast → o.resend = psn :: rest →
    s.ctxSends o.ctx → s.reqPath (s.ctx o.ctx) = .path j pth →
    (s.ctx o.ctx).unans.find? (fun v => v.psn == psn) = some u → u.kind ≠ 4 →
    s.resendFirst o.ctx psn = true → o.payloadAt u.off = some pl → u.off ∉ o.spoilt →
    ∃ (t : State) (k : Pkt), exec (.reqInject n) s = .next t ∧
      t.injQ = Tbl.set [] s.injQ 0 (queueOf s.injQ 0 ++ [k]) ∧ k.psn = psn ∧
      k.dstFa = (s.ctx o.ctx).remoteFa % 2 ^ 32 ∧
      (t.ctx o.ctx).unans.map (·.psn) = (s.ctx o.ctx).unans.map (·.psn) ∧
      (t.ctx o.ctx).nextPsn = (s.ctx o.ctx).nextPsn ∧
      (∃ o', t.op n = some o' ∧ o'.resend = rest.filter (fun q => !(q == psn)) ∧
        o'.next = o.next ∧ o'.allSent = o.allSent) ∧
      (s.ctrEvent = [] → t.counter 517 = min (s.counter 517 + 1) counterMax) ∧
      (∀ c, c ≠ o.ctx → t.ctx c = s.ctx c) ∧ (∀ m, m ≠ n → t.op m = s.op m) ∧
      t = { s with ctxs := t.ctxs, ops := t.ops, counters := t.counters, injQ := t.injQ }) ∧
  (∀ (s : State) (n : Nat) (o : Op) (pl : Bytes), s.live = true → s.quiet →
    s.op n = some o → o.kind = .mcast → o.allSent = false →
    sprueValid (Tbl.get 0 s.sprue o.tree) = true → sprueRoot (Tbl.get 0 s.sprue o.tree) = true →
    s.member (s.ep (bits (fld o.desc 48 8) 29 16)).partition s.nodeId = true →
    (s.mcastOut.filter fun m => m.1 == o.tree).length < 4 →
    o.payloadAt o.next = some pl → o.next ∉ o.spoilt → o.lastAt o.next = true →
    ∃ (t : State) (k : Pkt), exec (.reqInject n) s = .next t ∧
      t.injQ = Tbl.set [] s.injQ 0 (queueOf s.injQ 0 ++ [k]) ∧
      k.mode = 1 ∧ k.tree = o.tree ∧ k.psn = BitVec.ofNat 32 (Tbl.get 0 s.treeSeq o.tree) ∧
      t.mcastOut = s.mcastOut ++ [(o.tree, k.psn, n)] ∧
      Tbl.get 0 t.treeSeq o.tree = (k.psn + 1).toNat ∧
      (∃ o', t.op n = some o' ∧ o'.started = true ∧ o'.allSent = true ∧
        o'.pktsSent = o.pktsSent + 1) ∧
      (∀ m, m ≠ n → t.op m = s.op m) ∧
      t = { s with ops := t.ops, counters := t.counters, injQ := t.injQ, treeSeq := t.treeSeq,
                   mcastOut := t.mcastOut })

/-- R101, R112: HEAT_AGE halves the heat of a path with no echo for `HEAT_AGE`, and PATH_HOLDOFF
makes a path a candidate again, each of one connection alone. -/
def Obligations.PathTimers : Prop :=
  (∀ (s : State) (c : Nat) (path : Fin 4), (s.ctx c).st ≠ .free →
    (s.ctx c).heat.length = 4 → (s.ctx c).heatAt.length = 4 →
    nth 0 (s.ctx c).heatAt path + s.obj 0x4010 2 ≤ s.now →
    ∃ t, exec (.heatAge c path) s = .next t ∧
      nth 0 (t.ctx c).heat path = nth 0 (s.ctx c).heat path / 2 ∧
      nth 0 (t.ctx c).heatAt path = s.now ∧
      (∀ j, j ≠ path.val → nth 0 (t.ctx c).heat j = nth 0 (s.ctx c).heat j) ∧
      t.ctx c = { s.ctx c with heat := (t.ctx c).heat, heatAt := (t.ctx c).heatAt } ∧
      (∀ k, k ≠ c → t.ctx k = s.ctx k) ∧ t = { s with ctxs := t.ctxs }) ∧
  (∀ (s : State) (c : Nat) (path : Fin 4) (u : Nat), nth none (s.ctx c).holdUntil path = some u →
    u ≤ s.now →
    ∃ t, exec (.pathHoldoff c path) s = .next t ∧ (t.ctx c).held s.now path = false ∧
      (∀ j, j ≠ path.val → nth none (t.ctx c).holdUntil j = nth none (s.ctx c).holdUntil j) ∧
      t.ctx c = { s.ctx c with holdUntil := (t.ctx c).holdUntil } ∧
      (∀ k, k ≠ c → t.ctx k = s.ctx k) ∧ t = { s with ctxs := t.ctxs })

/-- R114 to R116, R119: DELIVERY_REPORT opens a record with a child's counts, MCAST_PUT writes the
copy into the landing region and opens the record with this node's own, and GATHER_WAIT closes a
record that has been open for its wait and makes the report of its sums to `PARENT`. That a record has the
partition of the packet that opened it is the model's choice (log 27). -/
def Obligations.MulticastReports : Prop :=
  (∀ (s : State) (i : Nat) (a : Arrival) (k : Nat), s.live = true → s.quiet →
    s.delivery[i]? = some a → a.pkt.format = 0 → a.pkt.kind = 5 →
    a.entry = Tbl.get 0 s.sprue a.pkt.tree →
    sprueValid (Tbl.get 0 s.sprue a.pkt.tree) = true →
    a.row ∈ sprueKids (Tbl.get 0 s.sprue a.pkt.tree) →
    1 < sprueChildren (Tbl.get 0 s.sprue a.pkt.tree) →
    k ∈ sprueKids (Tbl.get 0 s.sprue a.pkt.tree) → k ≠ a.row → (k = 16 ∨ s.portUp k = true) →
    (a.pkt.tree, a.pkt.psn) ∉ s.closedReports →
    ∃ t, exec (.deliveryReport i) s = .next t ∧
      t.reports = [{ tree := a.pkt.tree, key := a.pkt.psn, delivered := a.pkt.at_ 48 4,
                     fenced := a.pkt.at_ 52 4, count := 1, from_ := [a.row], openedAt := s.now,
                     wait := s.obj 0x4010 6, part := a.pkt.partition }] ∧
      t = { s with delivery := s.delivery.eraseIdx i, reports := t.reports }) ∧
  (∀ (s : State) (i : Nat) (a : Arrival) (k kk key : Nat) (r : Reg), s.live = true → s.quiet →
    s.delivery[i]? = some a → a.bad = false → a.passed = none → a.pkt.format = 1 → a.pkt.kind = 8 →
    s.fencedOut a.pkt = false → (s.ep (faEp a.pkt.dstFa)).mcastKey = some key →
    a.pkt.at_ 72 4 = 0 → a.pkt.plen ≠ 0 → a.pkt.offset + a.pkt.plen ≤ a.pkt.at_ 76 4 →
    s.grants (s.ep (faEp a.pkt.dstFa)).hl key (s.ep (faEp a.pkt.dstFa)).pd rightWrite
      (a.pkt.at_ 64 8 + a.pkt.offset) a.pkt.plen kk r →
    r.pool = false → s.canIssue r.fid r.pasid (r.dma (a.pkt.at_ 64 8 + a.pkt.offset)) a.pkt.plen = true →
    (s.link (fidLink r.fid)).invWait = [] → s.asleep (s.ep (faEp a.pkt.dstFa)).fid = false →
    a.entry = Tbl.get 0 s.sprue a.pkt.tree → sprueValid (Tbl.get 0 s.sprue a.pkt.tree) = true →
    16 ∈ sprueKids (Tbl.get 0 s.sprue a.pkt.tree) →
    1 < sprueChildren (Tbl.get 0 s.sprue a.pkt.tree) →
    k ∈ sprueKids (Tbl.get 0 s.sprue a.pkt.tree) → k ≠ 16 → s.portUp k = true →
    (a.pkt.tree, a.pkt.psn) ∉ s.closedReports →
    ∃ t, exec (.mcastPut i) s = .next t ∧
      t.out = s.out ++ [.hostWrite (fidLink r.fid) r.fid r.pasid r.relaxed
        (r.dma (a.pkt.at_ 64 8 + a.pkt.offset)) a.pkt.payload] ∧
      (∃ g, t.reports = [g] ∧ g.tree = a.pkt.tree ∧ g.key = a.pkt.psn ∧ g.delivered = 1 ∧
        g.fenced = 0 ∧ g.from_ = [16]) ∧
      t = { s with delivery := s.delivery.eraseIdx i, regs := t.regs, out := t.out,
                   reports := t.reports, counters := t.counters }) ∧
  (∀ (s : State) (tree : Fin 4096) (r : ReportRec), s.live = true →
    Block.quiet { s.toBlock with reports := [] } → s.reports = [r] → r.tree = tree.val →
    r.openedAt + r.wait ≤ s.now → sprueRoot (Tbl.get 0 s.sprue tree) = false →
    ∃ (t : State) (k : Pkt), exec (.gatherWait tree r.key) s = .next t ∧ t.reports = [] ∧
      (tree.val, r.key) ∈ t.closedReports ∧
      t.madeQ = Tbl.set [] s.madeQ (2 * sprueLayer (Tbl.get 0 s.sprue tree) + 1)
        (queueOf s.madeQ (2 * sprueLayer (Tbl.get 0 s.sprue tree) + 1) ++
          [(k, [sprueParent (Tbl.get 0 s.sprue tree)])]) ∧
      k.psn = r.key ∧ k.at_ 48 4 = r.delivered % 2 ^ 32 ∧ k.at_ 52 4 = r.fenced % 2 ^ 32 ∧
      t = { s with reports := t.reports, closedReports := t.closedReports, madeQ := t.madeQ,
                   fresh := t.fresh })

/-! ## Connections: requests at the receiver -/

/-- R175 to R191: a new SEND_RTS or SEND_EAGER whose turn has come takes the earliest posted receive that
matches it, or joins the unexpected list of its matching context. The bytes of a whole message that is
matched go to its receive, cut to the receive's length, and the receive completes; those of one that is not
go into a piece of the first overflow buffer that has room; a matched rendezvous message starts its pull.
The packet's PSN is a duplicate from then on. -/
def Obligations.SendArrives : Prop :=
  (∀ (s : State) (i : Nat) (a : Arrival) (c : Nat), s.arrives i 1 2 a c → s.takesSilently a c →
    s.sieveCheck (ctxLink c) (s.ep (faEp a.pkt.dstFa)).fid (s.ep (faEp a.pkt.dstFa)).pd a.pkt =
      stOk →
    a.pkt.msn = (s.ctx c).nextMatch → s.msgKey c a.pkt.msn = none →
    s.msgKey c (a.pkt.msn + 1) = none → s.msg s.nextOp = none →
    (firstMatch (s.mctx (mctxKey (ctxLink c) (a.pkt.at_ 72 2))).posted
      (BitVec.ofNat 64 (a.pkt.at_ 64 8)) a.pkt.srcFa).1 = none →
    s.inflightRoom (s.mctx (mctxKey (ctxLink c) (a.pkt.at_ 72 2))).fid = true →
    s.unexpectedRoom (s.mctx (mctxKey (ctxLink c) (a.pkt.at_ 72 2))).fid = true →
    ∃ (t : State) (e : InFlight), exec (.sendRts i) s = .next t ∧
      t.inflight = s.inflight ++ [(s.nextOp, e)] ∧ e.st = .unexpected ∧ e.ctx = c ∧
      e.msn = a.pkt.msn ∧ e.rts = true ∧ e.msgLen = a.pkt.at_ 76 4 ∧
      e.pullKey = a.pkt.at_ 80 4 ∧ e.pullAddr = a.pkt.at_ 88 8 ∧
      (t.mctx (mctxKey (ctxLink c) (a.pkt.at_ 72 2))).unexpected =
        (s.mctx (mctxKey (ctxLink c) (a.pkt.at_ 72 2))).unexpected ++ [s.nextOp] ∧
      (t.ctx c).nextMatch = (s.ctx c).nextMatch + 1 ∧ (t.ctx c).window a.pkt.psn 1 = .dup ∧
      t = { s with delivery := s.delivery.eraseIdx i, ctxs := t.ctxs, inflight := t.inflight,
                   nextOp := s.nextOp + 1, mctxs := t.mctxs, atomics := t.atomics,
                   counters := t.counters }) ∧
  (∀ (s : State) (i : Nat) (a : Arrival) (c : Nat), s.arrives i 1 1 a c → s.takesSilently a c →
    s.sieveCheck (ctxLink c) (s.ep (faEp a.pkt.dstFa)).fid (s.ep (faEp a.pkt.dstFa)).pd a.pkt =
      stOk →
    a.pkt.at_ 76 4 = 0 → a.pkt.msn = (s.ctx c).nextMatch → s.msgKey c a.pkt.msn = none →
    s.msgKey c (a.pkt.msn + 1) = none → s.msg s.nextOp = none →
    (firstMatch (s.mctx (mctxKey (ctxLink c) (a.pkt.at_ 72 2))).posted
      (BitVec.ofNat 64 (a.pkt.at_ 64 8)) a.pkt.srcFa).1 = none →
    s.inflightRoom (s.mctx (mctxKey (ctxLink c) (a.pkt.at_ 72 2))).fid = true →
    s.unexpectedRoom (s.mctx (mctxKey (ctxLink c) (a.pkt.at_ 72 2))).fid = true →
    ∃ (t : State) (e : InFlight), exec (.sendEager i) s = .next t ∧
      t.inflight = s.inflight ++ [(s.nextOp, e)] ∧ e.st = .unexpected ∧ e.ctx = c ∧
      e.msn = a.pkt.msn ∧ e.rts = false ∧ e.msgLen = 0 ∧ e.piece = none ∧
      (t.mctx (mctxKey (ctxLink c) (a.pkt.at_ 72 2))).unexpected =
        (s.mctx (mctxKey (ctxLink c) (a.pkt.at_ 72 2))).unexpected ++ [s.nextOp] ∧
      (t.ctx c).nextMatch = (s.ctx c).nextMatch + 1 ∧ (t.ctx c).window a.pkt.psn 1 = .dup ∧
      t = { s with delivery := s.delivery.eraseIdx i, ctxs := t.ctxs, inflight := t.inflight,
                   nextOp := s.nextOp + 1, mctxs := t.mctxs, atomics := t.atomics,
                   counters := t.counters }) ∧
  (∀ (s : State) (i : Nat) (a : Arrival) (c m k : Nat) (p : Posted) (r : Reg) (d : Bytes),
    s.opensMessage i 1 a c m →
    (firstMatch (s.mctx m).posted (BitVec.ofNat 64 (a.pkt.at_ 64 8)) a.pkt.srcFa).1 = some p →
    a.pkt.plen = a.pkt.at_ 76 4 → a.pkt.payload.length = a.pkt.at_ 76 4 →
    d = a.pkt.payload.take p.len → d ≠ [] → s.plainQueue p.q → p.trace = none →
    (∀ o ∈ s.ops, o.2.pulls = true → o.2.entry ≠ s.nextOp) → s.nextOp ∉ (s.mctx m).unexpected →
    s.landsIn (ctxLink c) p.lkey p.addr d.length k r →
    ∃ t, exec (.sendEager i) s = .next t ∧
      completesEntry p.q p.idx p.desc (if p.len < a.pkt.at_ 76 4 then stTruncated else stOk)
        (toLe 8 (BitVec.ofNat 64 (a.pkt.at_ 64 8)).toNat ++ toLe 4 a.pkt.srcFa ++ toLe 4 d.length ++
          toLe 4 (a.pkt.at_ 76 4) ++ zeros 2 ++ toLe 2 (fld p.desc 32 2))
        { s.toBlock with out := s.out ++ [.hostWrite (fidLink r.fid) r.fid r.pasid false
          (r.dma p.addr) d] } t.toBlock ∧
      t.mctx m = { s.mctx m with
        posted := (s.mctx m).posted.filter fun y => !(y.q == p.q && y.idx == p.idx) } ∧
      (∀ j, j ≠ m → t.mctx j = s.mctx j) ∧
      (t.ctx c).nextMatch = (s.ctx c).nextMatch + 1 ∧ (t.ctx c).window a.pkt.psn 1 = .dup ∧
      (∀ j, j ≠ c → t.ctx j = s.ctx j) ∧
      t = { s with delivery := s.delivery.eraseIdx i, ctxs := t.ctxs, nextOp := s.nextOp + 1,
                   mctxs := t.mctxs, atomics := t.atomics, queues := t.queues, out := t.out,
                   counters := t.counters }) ∧
  (∀ (s : State) (i : Nat) (a : Arrival) (c m k : Nat) (o : OvfBuf) (r : Reg),
    s.opensMessage i 1 a c m →
    (firstMatch (s.mctx m).posted (BitVec.ofNat 64 (a.pkt.at_ 64 8)) a.pkt.srcFa).1 = none →
    s.unexpectedRoom (s.mctx m).fid = true → a.pkt.at_ 76 4 ≠ 0 → a.pkt.payload ≠ [] →
    (∀ p ∈ (s.mctx m).overflow, p.past = false) →
    piecePlace (roundUp (a.pkt.at_ 76 4) 64) (s.mctx m).overflow = some ([], o) →
    (s.mctx m).overflow.find? (fun p => p.q == o.q && p.idx == o.idx) = some o →
    s.landsIn (ctxLink c) o.lkey (o.addr + o.used + a.pkt.offset) a.pkt.payload.length k r →
    ∃ (t : State) (e : InFlight), exec (.sendEager i) s = .next t ∧
      t.out = s.out ++ [.hostWrite (fidLink r.fid) r.fid r.pasid false
        (r.dma (o.addr + o.used + a.pkt.offset)) a.pkt.payload] ∧
      t.inflight = s.inflight ++ [(s.nextOp, e)] ∧ e.st = .unexpected ∧ e.ctx = c ∧
      e.msn = a.pkt.msn ∧ e.msgLen = a.pkt.at_ 76 4 ∧ e.got = a.pkt.payload.length ∧
      e.piece = some (o.q, o.idx, o.used) ∧ e.inPiece = [(a.pkt.offset, a.pkt.payload.length)] ∧
      t.mctx m = { s.mctx m with
        unexpected := (s.mctx m).unexpected ++ [s.nextOp],
        overflow := (s.mctx m).overflow.map fun p =>
          if p.q = o.q ∧ p.idx = o.idx then
            { p with used := p.used + roundUp (a.pkt.at_ 76 4) 64, pieces := p.pieces + 1 } else p } ∧
      (∀ j, j ≠ m → t.mctx j = s.mctx j) ∧
      (t.ctx c).nextMatch = (s.ctx c).nextMatch + 1 ∧ (t.ctx c).window a.pkt.psn 1 = .dup ∧
      (∀ j, j ≠ c → t.ctx j = s.ctx j) ∧
      t = { s with delivery := s.delivery.eraseIdx i, ctxs := t.ctxs, inflight := t.inflight,
                   nextOp := s.nextOp + 1, mctxs := t.mctxs, atomics := t.atomics,
                   out := t.out, counters := t.counters }) ∧
  (∀ (s : State) (i : Nat) (a : Arrival) (c m : Nat) (p : Posted), s.opensMessage i 2 a c m →
    (firstMatch (s.mctx m).posted (BitVec.ofNat 64 (a.pkt.at_ 64 8)) a.pkt.srcFa).1 = some p →
    0 < p.len → (s.queue p.q).notify = false →
    ∃ (t : State) (e : InFlight) (o : Op), exec (.sendRts i) s = .next t ∧
      t.inflight = s.inflight ++ [(s.nextOp, e)] ∧ e.st = .matched ∧ e.recv = some p ∧
      e.ctx = c ∧ e.msn = a.pkt.msn ∧ e.rts = true ∧
      t.ops = s.ops ++ [(s.nextOp + 1, o)] ∧ o.kind = .pull ∧ o.ctx = c ∧ o.entry = s.nextOp ∧
      o.len = min (a.pkt.at_ 76 4) p.len ∧ o.addr = p.addr ∧ o.lkey = p.lkey ∧
      o.rkey = a.pkt.at_ 80 4 ∧ o.remoteAddr = a.pkt.at_ 88 8 ∧
      t.mctx m = { s.mctx m with
        posted := (s.mctx m).posted.filter fun y => !(y.q == p.q && y.idx == p.idx) } ∧
      (∀ j, j ≠ m → t.mctx j = s.mctx j) ∧
      (t.ctx c).nextMatch = (s.ctx c).nextMatch + 1 ∧ (t.ctx c).window a.pkt.psn 1 = .dup ∧
      (∀ j, j ≠ c → t.ctx j = s.ctx j) ∧
      t = { s with delivery := s.delivery.eraseIdx i, ctxs := t.ctxs, inflight := t.inflight,
                   ops := t.ops, nextOp := s.nextOp + 2, mctxs := t.mctxs, atomics := t.atomics,
                   counters := t.counters })

/-- R135, R156, R159, R160: a new PUT is written to the region its key names, a new GET_REQ starts
the read of the range it asks for, and a new ATOMIC on the pool changes the pool, keeps its old
value in the response cache and answers with ATOMIC_RESP. -/
def Obligations.AccessArrives : Prop :=
  (∀ (s : State) (i : Nat) (a : Arrival) (c k : Nat) (r : Reg), s.arrives i 1 3 a c →
    s.takesSilently a c → a.pkt.plen ≠ 0 → a.pkt.offset + a.pkt.plen ≤ a.pkt.at_ 76 4 →
    s.grants (ctxLink c) (a.pkt.at_ 72 4) (s.targetPd a.pkt) rightWrite
      (a.pkt.at_ 64 8 + a.pkt.offset) a.pkt.plen k r →
    r.pool = false → s.canIssue r.fid r.pasid (r.dma (a.pkt.at_ 64 8 + a.pkt.offset)) a.pkt.plen = true →
    (s.link (fidLink r.fid)).invWait = [] →
    ∃ t, exec (.putPacket i) s = .next t ∧
      t.out = s.out ++ [.hostWrite (fidLink r.fid) r.fid r.pasid r.relaxed
        (r.dma (a.pkt.at_ 64 8 + a.pkt.offset)) a.pkt.payload] ∧
      (t.ctx c).window a.pkt.psn 1 = .dup ∧ (t.ctx c).ackCount = (s.ctx c).ackCount + 1 ∧
      (∀ d, d ≠ c → t.ctx d = s.ctx d) ∧
      t = { s with delivery := s.delivery.eraseIdx i, ctxs := t.ctxs, regs := t.regs,
                   atomics := t.atomics, counters := t.counters, out := t.out }) ∧
  (∀ (s : State) (i : Nat) (a : Arrival) (c k : Nat) (r : Reg), s.arrives i 1 4 a c →
    (s.ctx c).window a.pkt.psn (reqPsns a.pkt) = .fresh → a.pkt.plen = 0 → getRange a.pkt ≠ 0 →
    s.grants (ctxLink c) (a.pkt.at_ 72 4) (s.targetPd a.pkt) rightRead
      (a.pkt.at_ 64 8 + a.pkt.offset) (getRange a.pkt) k r →
    r.pool = false →
    s.canIssue r.fid r.pasid (r.dma (a.pkt.at_ 64 8 + a.pkt.offset)) (getRange a.pkt) = true →
    ∃ (t : State) (d : DmaReq), exec (.getReq i) s = .next t ∧ t.dma = s.dma ++ [d] ∧
      d.kind = .read ∧ d.fid = r.fid ∧ d.pasid = r.pasid ∧ d.tag = s.nextTag ∧
      d.addr = r.dma (a.pkt.at_ 64 8 + a.pkt.offset) ∧ d.len = getRange a.pkt ∧
      (t.ctx c).window a.pkt.psn (reqPsns a.pkt) = .inHand ∧
      (∀ d, d ≠ c → t.ctx d = s.ctx d) ∧
      t = { s with delivery := s.delivery.eraseIdx i, ctxs := t.ctxs, regs := t.regs,
                   dma := t.dma, nextTag := s.nextTag + 1 }) ∧
  (∀ (s : State) (i : Nat) (a : Arrival) (c k : Nat) (r : Reg), s.arrives i 1 6 a c →
    s.takesSilently a c → a.pkt.plen = 0 → atomicOp a.pkt ≤ 7 →
    s.grants (ctxLink c) (a.pkt.at_ 72 4) (s.targetPd a.pkt) rightAtomic
      (a.pkt.at_ 64 8 + a.pkt.offset) (atomicWidth a.pkt / 8) k r →
    (a.pkt.at_ 64 8 + a.pkt.offset) % (atomicWidth a.pkt / 8) = 0 → r.pool = true →
    s.atomics.length + s.atomicsBusy < s.atomicCacheSize →
    ∃ (t : State) (old : Nat), exec (.atomicPacket i) s = .next t ∧
      old = leNat (s.poolRead r (a.pkt.at_ 64 8 + a.pkt.offset - r.start) (atomicWidth a.pkt / 8)) ∧
      t.pool = (s.poolWrite r (a.pkt.at_ 64 8 + a.pkt.offset - r.start) (toLe (atomicWidth a.pkt / 8)
        (atomicNew (atomicOp a.pkt) (atomicWidth a.pkt) (bit (a.pkt.at_ 76 4) 5) old
          (a.pkt.at_ 80 8) (a.pkt.at_ 88 8)))).pool ∧
      (∃ e ∈ t.atomics, e.ctx = c ∧ e.psn = a.pkt.psn ∧
        e.old = toLe (atomicWidth a.pkt / 8) old ∧ e.at_ = s.now) ∧
      responds (fun k => k.kind = 7 ∧ k.psn = a.pkt.psn) s.toBlock t.toBlock ∧
      (t.ctx c).window a.pkt.psn 1 = .dup ∧ (∀ d, d ≠ c → t.ctx d = s.ctx d) ∧
      t = { s with delivery := s.delivery.eraseIdx i, ctxs := t.ctxs, regs := t.regs,
                   atomics := t.atomics, pool := t.pool, counters := t.counters, injQ := t.injQ })

/-! ## Connections: answers at the requester -/

/-- R140, R141, R263: the answer to a PUT's only PSN completes it: an ACK with OK, an error NAK with
the status it gives; nothing is unanswered any more and the timer stops. An RNR NAK makes the PSN
wait out the time it asks for. -/
def Obligations.PutAnswered : Prop :=
  (∀ (s : State) (i : Nat) (a : Arrival) (c : Nat) (u : Unans) (o : Op), s.arrives i 0 1 a c →
    (s.ctx c).unans = [u] → u.kind = 3 → ackCovers a.pkt.psn (a.pkt.at_ 56 8) u.psn = true →
    u.timerSent ≠ some s.now →
    s.op u.op = some o → o.kind = .put → o.ctx = c → o.allSent = true → o.status = stOk →
    o.closed = false → o.trace = none → s.plainQueue o.q →
    ∃ t, exec (.ack i) s = .next t ∧
      completesEntry o.q o.idx o.desc stOk [] s.toBlock t.toBlock ∧ t.ops = erase1 u.op s.ops ∧
      (t.ctx c).unans = [] ∧ (t.ctx c).timerAt = none ∧ (t.ctx c).tries = 0 ∧
      (t.ctx c).st = .active ∧ (∀ d, d ≠ c → t.ctx d = s.ctx d) ∧
      t = { s with delivery := s.delivery.eraseIdx i, ctxs := t.ctxs, ops := t.ops,
                   queues := t.queues, out := t.out, counters := t.counters }) ∧
  (∀ (s : State) (i : Nat) (a : Arrival) (c : Nat) (u : Unans) (o : Op), s.arrives i 0 2 a c →
    (s.ctx c).unans = [u] → u.kind = 3 → u.psn = a.pkt.psn → u.timerSent ≠ some s.now →
    a.pkt.at_ 51 1 = 2 →
    a.pkt.at_ 50 1 ≠ stOk → a.pkt.at_ 50 1 ≠ stConnError → a.pkt.at_ 50 1 ≠ stRemoteAbort →
    s.op u.op = some o → o.kind = .put → o.ctx = c → o.allSent = true → o.status = stOk →
    o.closed = false → o.trace = none → s.plainQueue o.q → s.ctrEvent = [] →
    ∃ t, exec (.nak i) s = .next t ∧
      completesEntry o.q o.idx o.desc (a.pkt.at_ 50 1) [] s.toBlock t.toBlock ∧
      t.ops = erase1 u.op s.ops ∧ (t.ctx c).unans = [] ∧ (t.ctx c).st = .active ∧
      t.counter 526 = min (s.counter 526 + 1) counterMax ∧
      (∀ d, d ≠ c → t.ctx d = s.ctx d) ∧
      t = { s with delivery := s.delivery.eraseIdx i, ctxs := t.ctxs, ops := t.ops,
                   queues := t.queues, out := t.out, counters := t.counters }) ∧
  (∀ (s : State) (i : Nat) (a : Arrival) (c : Nat) (u : Unans), s.arrives i 0 2 a c →
    (s.ctx c).unans = [u] → u.psn = a.pkt.psn → a.pkt.at_ 51 1 = 1 → a.pkt.at_ 56 4 ≠ 0 →
    (s.ctx c).rnrLimit = 15 ∨ u.rnrCount + 1 ≤ (s.ctx c).rnrLimit →
    ∃ t, exec (.nak i) s = .next t ∧
      (t.ctx c).unans = [{ u with heard := true, rnrCount := u.rnrCount + 1,
                                  rnrUntil := some (s.now + a.pkt.at_ 56 4 * 1000) }] ∧
      (t.ctx c).timerAt = none ∧ (t.ctx c).st = .active ∧ (∀ d, d ≠ c → t.ctx d = s.ctx d) ∧
      t = { s with delivery := s.delivery.eraseIdx i, ctxs := t.ctxs, ops := t.ops,
                   counters := t.counters })

/-- R140, R145, R159, R192: GET_RESP writes its payload to the requester's buffer and answers its
PSN; ATOMIC_RESP completes its operation with the old value; RDV_FIN completes the rendezvous SEND
it names with the status it carries, and is acknowledged. That the payload of a GET_RESP goes to the local
address plus its offset is the model's reading (log 137). -/
def Obligations.ResponsesTaken : Prop :=
  (∀ (s : State) (i : Nat) (a : Arrival) (c k : Nat) (u : Unans) (o : Op) (r : Reg),
    s.arrives i 1 5 a c → (s.ctx c).unans.find? (fun v => v.psn == a.pkt.psn) = some u →
    u.kind = 4 → u.timerSent ≠ some s.now → a.pkt.offset = u.off → a.pkt.plen = u.len →
    a.pkt.offset + a.pkt.plen ≤ a.pkt.at_ 76 4 → u.len ≠ 0 → s.op u.op = some o →
    o.allSent = false → o.closed = false → o.ctx = c → s.keyRegion o.hl o.lkey = some (k, r) →
    r.spilled = false → r.pool = false → (s.link (fidLink r.fid)).invWait = [] →
    s.canIssue r.fid r.pasid (r.dma (o.addr + u.off)) u.len = true →
    ∃ t, exec (.getResp i) s = .next t ∧
      t.out = s.out ++ [.hostWrite (fidLink r.fid) r.fid r.pasid false (r.dma (o.addr + u.off))
        a.pkt.payload] ∧
      (t.ctx c).unans.map (·.psn) =
        ((s.ctx c).unans.map (·.psn)).filter (fun p => !(p == a.pkt.psn)) ∧
      (∀ d, d ≠ c → t.ctx d = s.ctx d) ∧
      t = { s with delivery := s.delivery.eraseIdx i, ctxs := t.ctxs, ops := t.ops, out := t.out,
                   counters := t.counters }) ∧
  (∀ (s : State) (i : Nat) (a : Arrival) (c : Nat) (u : Unans) (o : Op), s.arrives i 1 7 a c →
    (s.ctx c).unans = [u] → u.psn = a.pkt.psn → u.kind = 6 → a.pkt.plen = 8 →
    u.timerSent ≠ some s.now →
    s.op u.op = some o → o.kind = .atomic → o.ctx = c → o.allSent = true → o.status = stOk →
    o.closed = false → o.trace = none → s.plainQueue o.q →
    ∃ t, exec (.atomicResp i) s = .next t ∧
      completesEntry o.q o.idx o.desc stOk a.pkt.payload s.toBlock t.toBlock ∧
      t.ops = erase1 u.op s.ops ∧ (t.ctx c).unans = [] ∧ (∀ d, d ≠ c → t.ctx d = s.ctx d) ∧
      t = { s with delivery := s.delivery.eraseIdx i, ctxs := t.ctxs, ops := t.ops,
                   queues := t.queues, out := t.out, counters := t.counters }) ∧
  (∀ (s : State) (i : Nat) (a : Arrival) (c n : Nat) (o : Op), s.arrives i 0 3 a c →
    (s.ctx c).window a.pkt.psn 1 = .fresh → s.ops = [(n, o)] → o.kind = .rts → o.started = true →
    o.closed = false → o.ctx = c → o.msn = BitVec.ofNat 32 (a.pkt.at_ 48 4) → o.trace = none →
    (∀ u ∈ (s.ctx c).unans, u.op ≠ n) → s.plainQueue o.q → s.ctrEvent = [] →
    ∃ t, exec (.rdvFin i) s = .next t ∧
      completesEntry o.q o.idx o.desc (a.pkt.at_ 60 1) [] s.toBlock t.toBlock ∧ t.ops = [] ∧
      (t.ctx c).window a.pkt.psn 1 = .dup ∧ (t.ctx c).ackCount = 0 ∧
      responds (fun k => k.kind = 1) s.toBlock t.toBlock ∧ (∀ d, d ≠ c → t.ctx d = s.ctx d) ∧
      t = { s with delivery := s.delivery.eraseIdx i, ctxs := t.ctxs, ops := t.ops,
                   atomics := t.atomics, queues := t.queues, out := t.out, counters := t.counters,
                   injQ := t.injQ })

/-- R45, R112: an UNROUTABLE_REPORT holds the path of the dropped packet off for `PATH_HOLDOFF`, and
one that names no connection's unanswered packet is counted; that counter 520 counts it is the model's
choice (log 135). -/
def Obligations.UnroutableTaken : Prop :=
  (∀ (s : State) (i : Nat) (a : Arrival) (c : Nat), s.live = true → s.quiet →
    s.delivery[i]? = some a → a.pkt.format = 0 → a.pkt.kind = 4 → s.reportedCtx a.pkt = some c →
    (s.ctx c).spilled = false → (s.ctx c).retryLimit ≤ (s.ctx c).tries →
    (s.ctx c).holdUntil.length = 4 →
    ∃ t, exec (.unroutableReport i) s = .next t ∧
      nth none (t.ctx c).holdUntil (a.pkt.at_ 48 1 % 4) = some (s.now + s.obj 0x4010 5 * 1000) ∧
      t.ctx c = { s.ctx c with holdUntil := (t.ctx c).holdUntil, used := s.now,
                               unans := (t.ctx c).unans } ∧
      (t.ctx c).unans.map (·.psn) = (s.ctx c).unans.map (·.psn) ∧
      (∀ j, j ≠ a.pkt.at_ 48 1 % 4 →
        nth none (t.ctx c).holdUntil j = nth none (s.ctx c).holdUntil j) ∧
      (∀ d, d ≠ c → t.ctx d = s.ctx d) ∧
      t = { s with delivery := s.delivery.eraseIdx i, ctxs := t.ctxs }) ∧
  (∀ (s : State) (i : Nat) (a : Arrival), s.live = true → s.quiet →
    s.delivery[i]? = some a → a.pkt.format = 0 → a.pkt.kind = 4 → s.reportedCtx a.pkt = none →
    ∃ t, exec (.unroutableReport i) s = .next t ∧
      t.counter 520 = min (s.counter 520 + 1) counterMax ∧
      t = { s with delivery := s.delivery.eraseIdx i, counters := t.counters })

/-! ## Timers of connections, and completions of the host link -/

/-- R138, R139, R141, R142, R158, R190: ACK_DELAY sends an ACK up to `BASE` - 1, RETRANSMISSION_TIMEOUT
and RNR_WAIT queue an unanswered PSN to be sent again, which starts the read of its payload from the local
buffer where it has one, ATOMIC_HOLD frees cache entries whose hold is
over, and RDV_WAIT completes a rendezvous SEND with TIMEOUT. -/
def Obligations.ConnectionTimers : Prop :=
  (∀ (s : State) (c u : Nat), s.live = true → s.quiet → (s.ctx c).st = .active →
    (s.ctx c).ackSince = some u → u + s.obj (0x2030 + ctxLink c) 2 ≤ s.now →
    ∃ t, exec (.ackDelay c) s = .next t ∧
      responds (fun k => k.kind = 1 ∧ k.psn = (s.ctx c).base - 1) s.toBlock t.toBlock ∧
      (t.ctx c).ackCount = 0 ∧ (t.ctx c).ackSince = none ∧ (t.ctx c).base = (s.ctx c).base ∧
      (∀ d, d ≠ c → t.ctx d = s.ctx d) ∧
      t = { s with ctxs := t.ctxs, injQ := t.injQ, counters := t.counters }) ∧
  (∀ (s : State) (c v : Nat) (u : Unans) (o : Op), s.live = true → s.quiet →
    (s.ctx c).st = .active → (s.ctx c).spilled = false → (s.ctx c).timerAt = some v →
    v + (s.ctx c).rto * 1000 * 2 ^ (s.ctx c).tries ≤ s.now → (s.ctx c).unans = [u] →
    u.rnrUntil = none → (s.ctx c).tries < (s.ctx c).retryLimit → s.op u.op = some o →
    u.psn ∉ o.resend → hasPayload u.kind = false ∨ u.len = 0 →
    ∃ t, exec (.retransmissionTimeout c) s = .next t ∧
      (t.ctx c).tries = (s.ctx c).tries + 1 ∧ (t.ctx c).timerAt = some s.now ∧
      (∃ o', t.op u.op = some o' ∧ o'.resend = insertPsn u.psn o.resend) ∧
      (∀ m, m ≠ u.op → t.op m = s.op m) ∧
      t.counter 518 = min (s.counter 518 + 1) counterMax ∧ (∀ d, d ≠ c → t.ctx d = s.ctx d) ∧
      t = { s with ctxs := t.ctxs, ops := t.ops, counters := t.counters }) ∧
  (∀ (s : State) (c v k : Nat) (u : Unans) (o : Op) (r : Reg), s.live = true → s.quiet →
    (s.ctx c).st = .active → (s.ctx c).spilled = false → (s.ctx c).timerAt = some v →
    v + (s.ctx c).rto * 1000 * 2 ^ (s.ctx c).tries ≤ s.now → (s.ctx c).unans = [u] →
    u.rnrUntil = none → (s.ctx c).tries < (s.ctx c).retryLimit → s.op u.op = some o →
    u.psn ∉ o.resend → hasPayload u.kind = true → u.len ≠ 0 → s.rereads o u k r →
    ∃ (t : State) (d : DmaReq), exec (.retransmissionTimeout c) s = .next t ∧
      (t.ctx c).tries = (s.ctx c).tries + 1 ∧ (t.ctx c).timerAt = some s.now ∧
      (∃ o', t.op u.op = some o' ∧ o'.resend = insertPsn u.psn o.resend) ∧
      t.dma = s.dma ++ [d] ∧ d.tag = s.nextTag ∧ d.kind = .read ∧ d.fid = r.fid ∧
      d.addr = r.dma (o.addr + u.off) ∧ d.len = u.len ∧ d.purpose = .payload u.op u.off ∧
      (∀ m, m ≠ u.op → t.op m = s.op m) ∧ (∀ d, d ≠ c → t.ctx d = s.ctx d) ∧
      t = { s with ctxs := t.ctxs, ops := t.ops, counters := t.counters, regs := t.regs,
                   dma := t.dma, nextTag := s.nextTag + 1 }) ∧
  (∀ (s : State) (c w : Nat) (u : Unans) (o : Op), s.live = true → s.quiet →
    (s.ctx c).st = .active → (s.ctx c).unans = [u] → u.rnrUntil = some w → w ≤ s.now →
    s.op u.op = some o → u.psn ∉ o.resend → hasPayload u.kind = false ∨ u.len = 0 →
    ∃ t, exec (.rnrWait c u.psn) s = .next t ∧
      (t.ctx c).unans = [{ u with rnrUntil := none }] ∧
      (∃ o', t.op u.op = some o' ∧ o'.resend = insertPsn u.psn o.resend) ∧
      (∀ m, m ≠ u.op → t.op m = s.op m) ∧ (∀ d, d ≠ c → t.ctx d = s.ctx d) ∧
      t = { s with ctxs := t.ctxs, ops := t.ops }) ∧
  (∀ (s : State) (c w k : Nat) (u : Unans) (o : Op) (r : Reg), s.live = true → s.quiet →
    (s.ctx c).st = .active → (s.ctx c).unans = [u] → u.rnrUntil = some w → w ≤ s.now →
    s.op u.op = some o → u.psn ∉ o.resend → hasPayload u.kind = true → u.len ≠ 0 →
    s.rereads o u k r →
    ∃ (t : State) (d : DmaReq), exec (.rnrWait c u.psn) s = .next t ∧
      (t.ctx c).unans = [{ u with rnrUntil := none }] ∧
      (∃ o', t.op u.op = some o' ∧ o'.resend = insertPsn u.psn o.resend) ∧
      t.dma = s.dma ++ [d] ∧ d.tag = s.nextTag ∧ d.kind = .read ∧ d.fid = r.fid ∧
      d.addr = r.dma (o.addr + u.off) ∧ d.len = u.len ∧ d.purpose = .payload u.op u.off ∧
      (∀ m, m ≠ u.op → t.op m = s.op m) ∧ (∀ d, d ≠ c → t.ctx d = s.ctx d) ∧
      t = { s with ctxs := t.ctxs, ops := t.ops, regs := t.regs, dma := t.dma,
                   nextTag := s.nextTag + 1 }) ∧
  (∀ (s : State) (c : Nat) (psn : BitVec 32),
    ∃ t, exec (.atomicHold c psn) s = .next t ∧
      (∀ e, e ∈ t.atomics ↔
        e ∈ s.atomics ∧ ¬(e.ctx = c ∧ e.psn = psn ∧ e.at_ + e.hold ≤ s.now)) ∧
      t = { s with atomics := t.atomics }) ∧
  (∀ (s : State) (c n w : Nat) (o : Op), s.live = true → s.quiet → s.ops = [(n, o)] →
    o.ctx = c → o.kind = .rts → o.started = true → o.closed = false → o.rdvUntil = some w →
    w ≤ s.now → o.trace = none → (∀ u ∈ (s.ctx c).unans, u.op ≠ n) → s.plainQueue o.q →
    ∃ t, exec (.rdvWait c o.msn) s = .next t ∧
      completesEntry o.q o.idx o.desc stTimeout [] s.toBlock t.toBlock ∧ t.ops = [] ∧
      t = { s with ops := t.ops, queues := t.queues, out := t.out, counters := t.counters })

/-- R129 to R131, R154, R158, R185: PANTRY_FILL_DONE brings a context or a region entry back into
its cache and lets the packets that waited for it arrive again, HOST_DMA_COMPLETION stages payload
that has been read, and OVERFLOW_COPY_DONE copies a message out of its piece, up to the receive's
length, and releases the piece. -/
def Obligations.FillsAndCopies : Prop :=
  (∀ (s : State) (c : Nat) (d : DmaReq), s.live = true → s.quiet → (s.ctx c).st ≠ .free →
    (s.ctx c).spilled = true → (s.ctx c).filling = true →
    Tbl.count (fun _ x => x.cached) s.ctxs < s.ctxCacheSize → s.fillsAlone false c d →
    ∃ t, exec (.pantryFillDone false c .good) s = .next t ∧
      t.ctx c = { s.ctx c with spilled := false, filling := false, used := s.now } ∧
      t.delivery = s.delivery ++ (s.fillStash.filter fun a => a.awaits == .ctx c).map
        (fun a => { a with awaits := .nothing }) ∧
      t.fillStash = s.fillStash.filter (fun a => !(a.awaits == .ctx c)) ∧
      (∀ d, d ≠ c → t.ctx d = s.ctx d) ∧
      t = { s with delivery := t.delivery, fillStash := t.fillStash, ctxs := t.ctxs,
                   counters := t.counters, dma := s.dma.filter fun e => !(e.tag == d.tag) }) ∧
  (∀ (s : State) (k : Nat) (d : DmaReq), s.live = true → s.quiet → (s.reg k).live = true →
    (s.reg k).spilled = true → (s.reg k).filling = true →
    Tbl.count (fun _ x => x.cached) s.regs < s.regCacheSize → s.fillsAlone true k d →
    ∃ t, exec (.pantryFillDone true k .good) s = .next t ∧
      t.reg k = { s.reg k with spilled := false, filling := false, used := s.now } ∧
      t.delivery = s.delivery ++ (s.fillStash.filter fun a => a.awaits == .region k).map
        (fun a => { a with awaits := .nothing }) ∧
      t.fillStash = s.fillStash.filter (fun a => !(a.awaits == .region k)) ∧
      (∀ j, j ≠ k → t.reg j = s.reg j) ∧
      t = { s with delivery := t.delivery, fillStash := t.fillStash, regs := t.regs,
                   counters := t.counters, dma := s.dma.filter fun e => !(e.tag == d.tag) }) ∧
  (∀ (s : State) (tag n off : Nat) (d : DmaReq) (o : Op) (bs : Bytes), s.live = true → s.quiet →
    s.dma.find? (fun e => e.tag == tag && !e.purpose.fills) = some d → d.purpose = .payload n off → bs.length = d.len →
    s.op n = some o → (s.link d.hl).invWait = [] → s.onLink d = true →
    ∃ t, exec (.hostDmaCompletion tag (.data bs)) s = .next t ∧
      (∃ o', t.op n = some o' ∧ (off, bs) ∈ o'.staged) ∧ (∀ m, m ≠ n → t.op m = s.op m) ∧
      t = { s with dma := s.dma.filter (fun e => !(e.tag == tag)), ops := t.ops }) ∧
  (∀ (s : State) (c k q idx po kf kt : Nat) (e : InFlight) (r : Posted) (o : OvfBuf) (f g : Reg),
    s.live = true → s.quiet → s.inflight = [(k, e)] → e.ctx = c → e.copying = true → e.recv = some r →
    (s.queue r.q).notify = false → e.got ≠ e.msgLen → e.piece = some (q, idx, po) →
    (∀ b ∈ (s.mctx e.mctx).overflow, b.past = false) → s.ctrEvent = [] →
    s.pieceOf e = some (o, po) → s.keyRegion e.hl o.lkey = some (kf, f) → f.spilled = false →
    s.keyRegion e.hl r.lkey = some (kt, g) → g.spilled = false →
    (s.link (fidLink g.fid)).invWait = [] →
    ∃ t, exec (.overflowCopyDone c e.msn true) s = .next t ∧
      t.inflight = [(k, { e with copying := false, piece := none })] ∧
      (t.mctx e.mctx).overflow = (s.mctx e.mctx).overflow.map (fun b =>
        if b.q = q ∧ b.idx = idx then { b with pieces := b.pieces - 1 } else b) ∧
      t.counter 776 = min (s.counter 776 + (e.copyRuns.map (·.2)).sum) counterMax ∧
      t.out = s.out ++ e.copyRuns.map (fun x =>
        Out.hostCopy e.hl g.fid (f.dma (o.addr + po + x.1)) f.pasid (g.dma (r.addr + x.1)) g.pasid
          x.2) ∧
      (∀ m, m ≠ e.mctx → t.mctx m = s.mctx m) ∧
      t = { s with regs := t.regs, inflight := t.inflight, mctxs := t.mctxs, counters := t.counters, out := t.out })

/-! ## Queues -/

/-- R251, R264: POLL takes a descriptor that is new at the consumer index, and doubles the interval
where it finds none; EQ_FREE_READ adds the entries that software has returned, and reads again at once where
every entry it read was one, else after the interval. Each takes one read from the poll budget. R169, R257, R262: NOP completes when it is issued, and so does LOCAL_FENCE
where nothing before it on its queue is outstanding: the completion is written over the descriptor
with status OK. That both do so whatever their bytes 16 to 63 hold, of which no rule calls one reserved, is
the model's choice (log 32). -/
def Obligations.RingsAndImmediates : Prop :=
  (∀ (s : State) (q : Nat) (e : Bytes), s.quiet → (s.queue q).ty < 2 → s.readsNow q →
    (s.queue q).taken = [] → entOwner e = true → entPhase e = (s.queue q).phase →
    (s.queue q).c + 1 < 2 ^ (s.queue q).log → entOpcode e ≤ 8 →
    (s.fn (s.queue q).fid).trace.on = false →
    ∃ (t : State) (d : Taken), exec (.poll q (some [e])) s = .next t ∧
      t.queue q = { s.queue q with
        c := (s.queue q).c + 1, interval := (s.queue q).pollBase, pollAt := none, taken := [d] } ∧
      d.idx = (s.queue q).c ∧ d.bytes = e ∧ d.at_ = s.ftime ∧ d.traced = false ∧ d.flushed = false ∧
      readPaid q s.toBlock t.toBlock ∧ (∀ k, k ≠ q → t.queue k = s.queue k) ∧
      t = { s with queues := t.queues, links := t.links, fns := t.fns, counters := t.counters,
                   ctxs := t.ctxs, regs := t.regs, out := t.out, fresh := t.fresh, dma := t.dma,
                   nextTag := t.nextTag }) ∧
  (∀ (s : State) (q : Nat), s.quiet → (s.queue q).ty < 2 → s.readsNow q →
    (s.queue q).taken.length < 8 →
    ∃ t, exec (.poll q (some [])) s = .next t ∧ readPaid q s.toBlock t.toBlock ∧
      (t.queue q).interval = min (2 * (s.queue q).interval) (s.queue q).pollCeil ∧
      (t.queue q).pollAt = some (s.now + (t.queue q).interval) ∧
      (t.queue q).c = (s.queue q).c ∧ (t.queue q).taken = (s.queue q).taken ∧
      (∀ k, k ≠ q → t.queue k = s.queue k) ∧
      t = { s with queues := t.queues, links := t.links, fns := t.fns, counters := t.counters }) ∧
  (∀ (s : State) (q : Nat) (l : List Bytes), s.quiet → (s.queue q).ty = 2 → s.readsNow q →
    (s.queue q).eqFree < 8 →
    returned (l.take (8 - (s.queue q).eqFree)) ≠ 0 → (s.queue q).parked = [] →
    (∀ f, (s.fn f).lost = 0) → (∀ e ∈ s.queues, ¬(e.2.eq = q ∧ e.2.notify = true)) →
    ∃ t, exec (.eqFreeRead q (some l)) s = .next t ∧ readPaid q s.toBlock t.toBlock ∧
      t.queue q = { s.queue q with
        eqFree := (s.queue q).eqFree + returned (l.take (8 - (s.queue q).eqFree)),
        interval := (s.queue q).pollBase,
        pollAt := some (if returned (l.take (8 - (s.queue q).eqFree)) <
            (l.take (8 - (s.queue q).eqFree)).length then s.now + (s.queue q).pollBase else s.now) } ∧
      (∀ k, k ≠ q → t.queue k = s.queue k) ∧
      t = { s with queues := t.queues, links := t.links, fns := t.fns, counters := t.counters }) ∧
  (∀ (s : State) (q : Nat) (d : Taken), s.headIs q 0 d → (s.queue q).ty < 2 →
    headerClear d.bytes false → fld d.bytes 4 4 = 0 → s.linkOpen (s.queue q).fid →
    ∃ t, exec (.nop q) s = .next t ∧ t.out = s.out ++ [doneWrite s.toBlock q d.idx d.bytes stOk []] ∧
      headLeaves q s.toBlock t.toBlock ∧
      t = { s with queues := t.queues, out := t.out, counters := t.counters }) ∧
  (∀ (s : State) (q : Nat) (d : Taken), s.headIs q 8 d → (s.queue q).ty = 0 →
    headerClear d.bytes false → fld d.bytes 4 4 = 0 → s.linkOpen (s.queue q).fid →
    (s.queue q).outstanding = [] →
    ∃ t, exec (.localFence q) s = .next t ∧
      t.out = s.out ++ [doneWrite s.toBlock q d.idx d.bytes stOk []] ∧
      headLeaves q s.toBlock t.toBlock ∧
      t = { s with queues := t.queues, out := t.out, counters := t.counters })

/-- R255, R258 to R261: a descriptor that meets the checks of R261, field by field, on a queue whose turn
it is, is issued. SEND above `EAGER_THRESHOLD`, GET and ATOMIC start an operation; SEND up to the
threshold, PUT and PUT with `MCAST` start one too and read its first payload of at most 4,096 bytes,
where there is any. The descriptor is outstanding from then on. -/
def Obligations.SendDescriptors : Prop :=
  (∀ (s : State) (q k : Nat) (d : Taken) (r : Reg), s.headIs q 1 d → (s.queue q).ty = 0 →
    headerClear d.bytes false → s.ctxServes q d.bytes →
    clearAt d.bytes [(26, 2), (36, 4), (48, 16)] →
    s.obj (0x2030 + (s.queue q).hl) 5 < fld d.bytes 28 4 →
    s.bufferFor q (fld d.bytes 32 4) (fld d.bytes 40 8) (fld d.bytes 28 4) (some rightRead) k r →
    ∃ (t : State) (o : Op), exec (.send q) s = .next t ∧
      t.ops = s.ops ++ [(s.nextOp, o)] ∧
      opFor q d .rts (fld d.bytes 28 4) o ∧ headLeaves q s.toBlock t.toBlock ∧
      (t.queue q).outstanding = (s.queue q).outstanding ++ [d.idx] ∧
      t = { s with queues := t.queues, ops := t.ops, nextOp := s.nextOp + 1, ctxs := t.ctxs,
                   regs := t.regs, fns := t.fns, issueFn := t.issueFn, counters := t.counters }) ∧
  (∀ (s : State) (q k : Nat) (d : Taken) (r : Reg), s.headIs q 1 d → (s.queue q).ty = 0 →
    headerClear d.bytes false → s.ctxServes q d.bytes →
    clearAt d.bytes [(26, 2), (36, 4), (48, 16)] →
    fld d.bytes 28 4 ≤ s.obj (0x2030 + (s.queue q).hl) 5 → fld d.bytes 28 4 ≠ 0 →
    s.bufferFor q (fld d.bytes 32 4) (fld d.bytes 40 8) (fld d.bytes 28 4) none k r →
    s.payloadReads q r (min 4096 (fld d.bytes 28 4)) →
    ∃ (t : State) (o : Op) (m : DmaReq), exec (.send q) s = .next t ∧
      t.ops = s.ops ++ [(s.nextOp, o)] ∧
      opFor q d .eager (fld d.bytes 28 4) o ∧ headLeaves q s.toBlock t.toBlock ∧
      t.dma = s.dma ++ [m] ∧ m.addr = r.dma (fld d.bytes 40 8) ∧
      m.len = min 4096 (fld d.bytes 28 4) ∧ m.purpose = .payload s.nextOp 0 ∧
      (t.queue q).outstanding = (s.queue q).outstanding ++ [d.idx] ∧
      t = { s with queues := t.queues, ops := t.ops, nextOp := s.nextOp + 1, dma := t.dma,
                   nextTag := s.nextTag + 1, ctxs := t.ctxs, regs := t.regs, fns := t.fns,
                   issueFn := t.issueFn, agentFn := t.agentFn, counters := t.counters }) ∧
  (∀ (s : State) (q : Nat) (d : Taken), s.headIs q 1 d → (s.queue q).ty = 0 →
    headerClear d.bytes false → s.ctxServes q d.bytes →
    clearAt d.bytes [(26, 2), (36, 4), (48, 16)] → fld d.bytes 28 4 = 0 →
    ∃ (t : State) (o : Op), exec (.send q) s = .next t ∧
      t.ops = s.ops ++ [(s.nextOp, o)] ∧
      opFor q d .eager 0 o ∧ headLeaves q s.toBlock t.toBlock ∧
      (t.queue q).outstanding = (s.queue q).outstanding ++ [d.idx] ∧
      t = { s with queues := t.queues, ops := t.ops, nextOp := s.nextOp + 1, ctxs := t.ctxs,
                   fns := t.fns, issueFn := t.issueFn, counters := t.counters }) ∧
  (∀ (s : State) (q k : Nat) (d : Taken) (r : Reg), s.headIs q 2 d → (s.queue q).ty = 0 →
    headerClear d.bytes false → s.ctxServes q d.bytes →
    clearAt d.bytes [(36, 4), (48, 8), (56, 8)] → fld d.bytes 28 4 ≠ 0 →
    s.bufferFor q (fld d.bytes 32 4) (fld d.bytes 40 8) (fld d.bytes 28 4) none k r →
    s.payloadReads q r (min 4096 (fld d.bytes 28 4)) →
    ∃ (t : State) (o : Op) (m : DmaReq), exec (.put q) s = .next t ∧
      t.ops = s.ops ++ [(s.nextOp, o)] ∧
      opFor q d .put (fld d.bytes 28 4) o ∧ headLeaves q s.toBlock t.toBlock ∧
      t.dma = s.dma ++ [m] ∧ m.addr = r.dma (fld d.bytes 40 8) ∧
      m.len = min 4096 (fld d.bytes 28 4) ∧ m.purpose = .payload s.nextOp 0 ∧
      (t.queue q).outstanding = (s.queue q).outstanding ++ [d.idx] ∧
      t = { s with queues := t.queues, ops := t.ops, nextOp := s.nextOp + 1, dma := t.dma,
                   nextTag := s.nextTag + 1, ctxs := t.ctxs, regs := t.regs, fns := t.fns,
                   issueFn := t.issueFn, agentFn := t.agentFn, counters := t.counters }) ∧
  (∀ (s : State) (q k : Nat) (d : Taken) (r : Reg), s.headIs q 2 d → (s.queue q).ty = 0 →
    headerClear d.bytes true → clearAt d.bytes [(4, 4), (24, 4), (56, 8)] →
    bits (fld d.bytes 36 4) 31 12 = 0 → bits (fld d.bytes 48 8) 15 14 = 0 →
    bits (fld d.bytes 48 8) 63 30 = 0 → (s.ep (bits (fld d.bytes 48 8) 29 16)).live = true →
    (s.ep (bits (fld d.bytes 48 8) 29 16)).fid = (s.queue q).fid →
    (s.ep (bits (fld d.bytes 48 8) 29 16)).pd = (s.queue q).pd → fld d.bytes 28 4 ≠ 0 →
    s.bufferFor q (fld d.bytes 32 4) (fld d.bytes 40 8) (fld d.bytes 28 4) none k r →
    s.payloadReads q r (min 4096 (fld d.bytes 28 4)) →
    ∃ (t : State) (o : Op) (m : DmaReq), exec (.putMcast q) s = .next t ∧
      t.ops = s.ops ++ [(s.nextOp, o)] ∧
      opFor q d .mcast (fld d.bytes 28 4) o ∧ headLeaves q s.toBlock t.toBlock ∧
      t.dma = s.dma ++ [m] ∧ m.addr = r.dma (fld d.bytes 40 8) ∧
      m.len = min 4096 (fld d.bytes 28 4) ∧ m.purpose = .payload s.nextOp 0 ∧
      (t.queue q).outstanding = (s.queue q).outstanding ++ [d.idx] ∧
      t = { s with queues := t.queues, ops := t.ops, nextOp := s.nextOp + 1, dma := t.dma,
                   nextTag := s.nextTag + 1, regs := t.regs, fns := t.fns, issueFn := t.issueFn,
                   agentFn := t.agentFn, counters := t.counters }) ∧
  (∀ (s : State) (q k : Nat) (d : Taken) (r : Reg), s.headIs q 3 d → (s.queue q).ty = 0 →
    headerClear d.bytes false → s.ctxServes q d.bytes →
    clearAt d.bytes [(36, 4), (48, 16)] → fld d.bytes 28 4 ≠ 0 →
    s.bufferFor q (fld d.bytes 32 4) (fld d.bytes 40 8) (fld d.bytes 28 4) (some rightLocalWrite) k r →
    ∃ (t : State) (o : Op), exec (.get q) s = .next t ∧
      t.ops = s.ops ++ [(s.nextOp, o)] ∧
      opFor q d .get (fld d.bytes 28 4) o ∧ headLeaves q s.toBlock t.toBlock ∧
      (t.queue q).outstanding = (s.queue q).outstanding ++ [d.idx] ∧
      t = { s with queues := t.queues, ops := t.ops, nextOp := s.nextOp + 1, ctxs := t.ctxs,
                   regs := t.regs, fns := t.fns, issueFn := t.issueFn, counters := t.counters }) ∧
  (∀ (s : State) (q : Nat) (d : Taken), s.headIs q 4 d → (s.queue q).ty = 0 →
    headerClear d.bytes false → s.ctxServes q d.bytes →
    clearAt d.bytes [(32, 8), (56, 8)] → bits (fld d.bytes 28 4) 31 6 = 0 →
    bits (fld d.bytes 28 4) 3 0 ≤ 7 →
    ∃ (t : State) (o : Op), exec (.atomic q) s = .next t ∧
      t.ops = s.ops ++ [(s.nextOp, o)] ∧
      opFor q d .atomic 0 o ∧ headLeaves q s.toBlock t.toBlock ∧
      (t.queue q).outstanding = (s.queue q).outstanding ++ [d.idx] ∧
      t = { s with queues := t.queues, ops := t.ops, nextOp := s.nextOp + 1, ctxs := t.ctxs,
                   fns := t.fns, issueFn := t.issueFn, counters := t.counters })

/-- R176, R187, R283: a descriptor that meets the checks of R261, field by field, is issued. POST_RECV posts
a receive that no unexpected message waits for, POST_OVERFLOW lends a buffer to its matching context,
and POUR joins the pours of its mould index under the sequence number the index expects. -/
def Obligations.ReceiveDescriptors : Prop :=
  (∀ (s : State) (q : Nat) (d : Taken), s.headIs q 5 d → (s.queue q).ty = 1 →
    headerClear d.bytes false → clearAt d.bytes [(4, 4), (56, 8)] →
    bits (fld d.bytes 32 4) 31 18 = 0 → bits (fld d.bytes 32 4) 17 16 ≠ 3 →
    s.listServes q d.bytes →
    (fld d.bytes 52 4 = 0 ∨ ∃ k r, s.bufferFor q (fld d.bytes 48 4) (fld d.bytes 40 8)
      (fld d.bytes 52 4) (some rightLocalWrite) k r) →
    (s.mctx (mctxKey (s.queue q).hl (fld d.bytes 32 2))).unexpected = [] →
    ∃ (t : State) (r : Posted), exec (.postRecv q) s = .next t ∧
      (t.mctx (mctxKey (s.queue q).hl (fld d.bytes 32 2))).posted =
        (s.mctx (mctxKey (s.queue q).hl (fld d.bytes 32 2))).posted ++ [r] ∧
      r.q = q ∧ r.idx = d.idx ∧ r.tag = BitVec.ofNat 64 (fld d.bytes 16 8) ∧
      r.ignore = BitVec.ofNat 64 (fld d.bytes 24 8) ∧ r.addr = fld d.bytes 40 8 ∧
      r.len = fld d.bytes 52 4 ∧ headLeaves q s.toBlock t.toBlock ∧
      (∀ m, m ≠ mctxKey (s.queue q).hl (fld d.bytes 32 2) → t.mctx m = s.mctx m) ∧
      t = { s with queues := t.queues, mctxs := t.mctxs, regs := t.regs, counters := t.counters }) ∧
  (∀ (s : State) (q k : Nat) (d : Taken) (r : Reg), s.headIs q 6 d → (s.queue q).ty = 1 →
    headerClear d.bytes false → clearAt d.bytes [(4, 4), (16, 16), (36, 4), (56, 8)] →
    bits (fld d.bytes 32 4) 31 16 = 0 → s.listServes q d.bytes → fld d.bytes 40 8 % 64 = 0 →
    fld d.bytes 52 4 % 64 = 0 → 16384 ≤ fld d.bytes 52 4 → fld d.bytes 52 4 ≤ 2 ^ 30 →
    s.bufferFor q (fld d.bytes 48 4) (fld d.bytes 40 8) (fld d.bytes 52 4) (some rightLocalWrite) k r →
    ∃ (t : State) (o : OvfBuf), exec (.postOverflow q) s = .next t ∧
      (t.mctx (mctxKey (s.queue q).hl (fld d.bytes 32 2))).overflow =
        (s.mctx (mctxKey (s.queue q).hl (fld d.bytes 32 2))).overflow ++ [o] ∧
      o.q = q ∧ o.idx = d.idx ∧ o.addr = fld d.bytes 40 8 ∧ o.len = fld d.bytes 52 4 ∧
      o.used = 0 ∧ headLeaves q s.toBlock t.toBlock ∧
      (∀ m, m ≠ mctxKey (s.queue q).hl (fld d.bytes 32 2) → t.mctx m = s.mctx m) ∧
      t = { s with queues := t.queues, mctxs := t.mctxs, regs := t.regs, counters := t.counters }) ∧
  (∀ (s : State) (q i : Nat) (d : Taken), s.headIs q 7 d → (s.queue q).ty = 0 →
    headerClear d.bytes false → clearAt d.bytes [(4, 4), (56, 8)] →
    bits (fld d.bytes 16 8) 31 10 = 0 → i = bits (fld d.bytes 16 8) 9 0 →
    (s.mould i).st = .valid → (s.mould i).doomed = false →
    (s.queue q).hl = (s.mould i).hostLink → fld d.bytes 28 4 = (s.mould i).elements →
    BitVec.ofNat 32 (fld d.bytes 20 4) = (s.mould i).nextSeq →
    ((s.mould i).srcBytes = 0 ∨ ∃ k r, s.bufferFor q (fld d.bytes 24 4) (fld d.bytes 40 8)
      (s.mould i).srcBytes none k r) →
    ((s.mould i).dstBytes = 0 ∨ ∃ k r, s.bufferFor q (fld d.bytes 32 4) (fld d.bytes 48 8)
      (s.mould i).dstBytes (some rightLocalWrite) k r) →
    bit (s.quota (s.queue q).hl 16) (s.mould i).partition = true →
    s.member (s.mould i).partition s.nodeId = true →
    (∀ w ∈ (s.mould i).trees, sprueValid (s.sprueOf w) = true ∧ sprueLocal (s.sprueOf w) = true) →
    ∃ (t : State) (p : Pour), exec (.pour q) s = .next t ∧
      t.mould i = { s.mould i with pours := (s.mould i).pours ++ [p],
                                   nextSeq := (s.mould i).nextSeq + 1 } ∧
      p.q = q ∧ p.idx = d.idx ∧ p.desc = d.bytes ∧ p.armed = false ∧
      p.seq = (s.mould i).nextSeq ∧ (∀ j, j ≠ i → t.mould j = s.mould j) ∧
      headLeaves q s.toBlock t.toBlock ∧
      (t.queue q).outstanding = (s.queue q).outstanding ++ [d.idx] ∧
      t = { s with queues := t.queues, moulds := t.moulds, counters := t.counters, regs := t.regs,
                   fresh := s.fresh + 1 })

/-! ## Pours -/

/-- R274, R286, R287, R293: each kind of step starts and does its own work: COPY_IN reads the host
range, COPY_OUT writes it, SEND, GATHER and MCAST inject the packets R287 cuts, RECV waits for
arriving packets, COMBINE writes what R303 computes, and a NOP completes at once. -/
def Obligations.PourSteps : Prop :=
  (∀ (s : State) (i : Fin 1024) (p : Pour) (t : Step), s.stepIs i sopNop p t →
    p.next + 1 < (s.mould i).stepCount → (s.fn p.fid).trace.stepOn = false →
    ∃ u, exec (.mouldNopStep i) s = .next u ∧
      u.mould i = { s.mould i with pours := [{ p with
        next := p.next + 1, doneSteps := p.doneSteps ++ [(p.next, s.ftime, s.ftime)],
        lastDoneAt := s.now }] } ∧
      (∀ j, j ≠ i.val → u.mould j = s.mould j) ∧
      u = { s with moulds := u.moulds, counters := u.counters }) ∧
  (∀ (s : State) (i : Fin 1024) (p : Pour) (t : Step) (k : Nat) (r : Reg),
    s.stepIs i sopCopyIn p t → t.len ≠ 0 → s.namesRegion p.hl (fld p.desc 24 4) k r →
    s.linkOpen r.fid →
    ∃ (u : State) (d : DmaReq), exec (.copyIn i) s = .next u ∧
      stepStarts i p false s.toBlock u.toBlock ∧ u.dma = s.dma ++ [d] ∧ d.kind = .read ∧
      d.addr = r.dma (fld p.desc 40 8 + t.addrB) ∧ d.len = t.len ∧
      d.purpose = .mouldCopyIn i p.next p.seq ∧
      u = { s with moulds := u.moulds, dma := u.dma, nextTag := s.nextTag + 1, regs := u.regs }) ∧
  (∀ (s : State) (i : Fin 1024) (p : Pour) (t : Step) (k : Nat) (r : Reg),
    s.stepIs i sopCopyOut p t → t.len ≠ 0 → s.namesRegion p.hl (fld p.desc 32 4) k r →
    r.pool = false → s.linkOpen r.fid →
    ∃ u, exec (.copyOut i) s = .next u ∧ stepStarts i p true s.toBlock u.toBlock ∧
      u.out = s.out ++ [.hostWrite (fidLink r.fid) r.fid r.pasid false
        (r.dma (fld p.desc 48 8 + t.addrB)) (s.slotRead i t.addrA t.len)] ∧
      u = { s with moulds := u.moulds, out := u.out, regs := u.regs }) ∧
  (∀ (s : State) (i : Fin 1024) (p : Pour) (t : Step), s.stepIs i sopSend p t →
    peerNode ((s.mould i).peer t.arg) = s.nodeId ∨
      (pathOf (s.bookOf (peerNode ((s.mould i).peer t.arg)))
        (peerPath ((s.mould i).peer t.arg))).valid = true →
    ∃ u, exec (.mouldSendStep i) s = .next u ∧ stepStarts i p false s.toBlock u.toBlock ∧
      stepSends i t.spvc (pourCuts t.len).length 0 p.seq s.toBlock u.toBlock ∧
      u = { s with moulds := u.moulds, injQ := u.injQ }) ∧
  (∀ (s : State) (i : Fin 1024) (p : Pour) (t : Step), s.stepIs i sopRecv p t →
    ∃ u, exec (.recv i) s = .next u ∧ stepStarts i p false s.toBlock u.toBlock ∧
      u = { s with moulds := u.moulds }) ∧
  (∀ (s : State) (i : Fin 1024) (p : Pour) (t : Step), s.stepIs i sopCombine p t →
    ∃ u, exec (.combine i) s = .next u ∧ stepStarts i p true s.toBlock u.toBlock ∧
      u.slots = (s.slotWrite i t.addrA (s.combineStep i t).1).slots ∧
      u = { s with moulds := u.moulds, slots := u.slots, badSlots := u.badSlots, counters := u.counters }) ∧
  (∀ (s : State) (i : Fin 1024) (p : Pour) (t : Step), s.stepIs i sopGather p t →
    ∃ u, exec (.gather i) s = .next u ∧ stepStarts i p false s.toBlock u.toBlock ∧
      stepSends i t.spvc (pourCuts t.len).length 2 p.seq s.toBlock u.toBlock ∧
      u = { s with moulds := u.moulds, injQ := u.injQ }) ∧
  (∀ (s : State) (i : Fin 1024) (p : Pour) (t : Step), s.stepIs i sopMcast p t →
    s.stepRoot t = true →
    ∃ u, exec (.mcast i) s = .next u ∧ stepStarts i p false s.toBlock u.toBlock ∧
      stepSends i t.spvc (pourCuts t.len).length 1 p.seq s.toBlock u.toBlock ∧
      u = { s with moulds := u.moulds, injQ := u.injQ })

/-- R285, R286, R292: POUR_ARM arms the next pour of an index and puts its argument into slot 0;
STEP_COMPLETE of the last step of a pour completes its descriptor with status OK and `POUR_RESULT`. That
the engine may be one of any live region, and that the pour's home goes there, is the model's choice (logs 4
and 142). -/
def Obligations.PourLife : Prop :=
  (∀ (s : State) (i : Fin 1024) (p : Pour) (n : Nat), s.live = true → s.quiet →
    (s.mould i).st = .valid → (s.mould i).pours = [p] → p.armed = false → (s.mould i).broken = none →
    (s.mould i).held = [] → s.engineFor n p.hl →
    ∃ (t : State) (q : Pour), exec (.pourArm i) s = .next t ∧
      t.mould i = { s.mould i with pours := [q] } ∧ q.armed = true ∧ q.armedAt = s.now ∧
      q.seq = p.seq ∧ q.next = p.next ∧ q.lastDoneAt = s.now ∧ q.home = q.engine / 4 ∧
      q.watchdog = (if (s.mould i).watchdogUs = 0 then s.obj 0x6800 3 else (s.mould i).watchdogUs) ∧
      t.slots = (s.slotWrite i 0 (slice p.desc 36 4)).slots ∧
      t.counter 816 = min (s.counter 816 + 1) counterMax ∧
      (∀ j, j ≠ i.val → t.mould j = s.mould j) ∧
      t = { s with moulds := t.moulds, slots := t.slots, counters := t.counters,
                   fresh := s.fresh + 1 }) ∧
  (∀ (s : State) (i : Fin 1024) (p : Pour) (r : StepRun), s.live = true → s.quiet →
    (s.mould i).pours = [p] → p.armed = true → p.running = [r] →
    p.next = (s.mould i).stepCount → s.stepMet i p r → (s.mould i).doomed = false →
    (s.fn p.fid).trace.stepOn = false → (s.fn p.fid).trace.stepPending = none →
    p.trace = none → s.plainQueue p.q →
    ∃ t, exec (.stepComplete i r.step) s = .next t ∧
      completesEntry p.q p.idx p.desc stOk
        (pourResult none (p.doneSteps.length + 1) (s.now - p.armedAt)) s.toBlock t.toBlock ∧
      t.mould i = { s.mould i with
        pours := [],
        broken := if (s.mould i).brokenSeq = p.seq then none else (s.mould i).broken } ∧
      (∀ j, j ≠ i.val → t.mould j = s.mould j) ∧
      t = { s with moulds := t.moulds, queues := t.queues, out := t.out,
                   counters := t.counters })

/-- R289, R292, R294, R296: MOULD_DATA lands in the slot space of the armed pour and is credited to
its step, a BREAK for the next pour is recorded once, and POUR_WATCHDOG breaks the armed pour with
cause TIMEOUT, which completes its descriptor with MOULD_BREAK. -/
def Obligations.PourPackets : Prop :=
  (∀ (s : State) (n k : Nat) (a : Arrival) (q : Pour), s.live = true → s.quiet →
    s.delivery[n]? = some a → a.pkt.format = 1 → a.pkt.kind = 9 → a.pkt.mode = 0 →
    (s.mould a.pkt.mouldIdx).st = .valid → s.member a.pkt.partition (faNode a.pkt.srcFa) = true →
    s.member a.pkt.partition s.nodeId = true → (s.mould a.pkt.mouldIdx).pours = [q] →
    q.armed = true → q.seq = a.pkt.pourSeq →
    s.landingStep (s.mould a.pkt.mouldIdx) a.pkt.slotAddr a.pkt.plen = some k →
    a.pkt.slotAddr + a.pkt.plen ≤ ((s.mould a.pkt.mouldIdx).step k).addrA +
      ((s.mould a.pkt.mouldIdx).step k).len →
    (∀ r ∈ q.landed, overlaps r.1 r.2 a.pkt.slotAddr a.pkt.plen = false) →
    ∃ t, exec (.mouldData n) s = .next t ∧
      t.slots = (s.slotWrite a.pkt.mouldIdx a.pkt.slotAddr a.pkt.payload).slots ∧
      t.mould a.pkt.mouldIdx =
        { s.mould a.pkt.mouldIdx with
          pours := [(q.addCredit k a.pkt.plen).addLanded a.pkt.slotAddr a.pkt.plen] } ∧
      (∀ j, j ≠ a.pkt.mouldIdx → t.mould j = s.mould j) ∧
      t = { s with delivery := s.delivery.eraseIdx n, slots := t.slots, badSlots := t.badSlots,
                   moulds := t.moulds }) ∧
  (∀ (s : State) (n i : Nat) (a : Arrival), s.live = true → s.quiet →
    s.delivery[n]? = some a → a.pkt.format = 0 → a.pkt.kind = 6 → a.pkt.at_ 50 1 = 1 →
    a.pkt.mode = 0 → i = bits (a.pkt.at_ 48 2) 9 0 → (s.mould i).st = .valid →
    (s.mould i).armed = none → (s.mould i).nextPour = a.pkt.psn → (s.mould i).broken = none →
    (s.mould i).peerCount = 0 → (s.mould i).trees = [] →
    ∃ t, exec (.breakMsg n) s = .next t ∧
      (t.mould i).broken = some { cause := a.pkt.at_ 51 1, origin := bits (a.pkt.at_ 52 4) 17 0,
                                  step := bits (a.pkt.at_ 56 2) 11 0, detail := a.pkt.at_ 58 1 } ∧
      (t.mould i).brokenSeq = a.pkt.psn ∧
      (t.mould i).pours = (s.mould i).pours ∧ (∀ j, j ≠ i → t.mould j = s.mould j) ∧
      t = { s with delivery := s.delivery.eraseIdx n, moulds := t.moulds, gathers := t.gathers,
                   freed := t.freed }) ∧
  (∀ (s : State) (i : Fin 1024) (p : Pour), s.live = true → s.quiet →
    (s.mould i).pours = [p] → p.armed = true → p.lastDoneAt + p.watchdog * 1000 ≤ s.now →
    (s.mould i).doomed = false →
    (s.mould i).peerCount = 0 → (s.mould i).trees = [] →
    (s.fn p.fid).trace.stepPending = none → p.trace = none → s.evtOn p.fid 10 = false →
    s.plainQueue p.q →
    ∃ t, exec (.pourWatchdog i) s = .next t ∧
      completesEntry p.q p.idx p.desc stMouldBreak
        (pourResult (some { cause := 3, origin := s.nodeId, step := p.runningStep, detail := 0 })
          p.doneSteps.length (s.now - p.armedAt)) s.toBlock t.toBlock ∧
      (t.mould i).pours = [] ∧ (t.mould i).undef = some s.fresh ∧
      (∀ j, j ≠ i.val → t.mould j = s.mould j) ∧
      t = { s with injQ := t.injQ, madeQ := t.madeQ, outQ := t.outQ, copying := t.copying,
                   gathers := t.gathers, freed := t.freed, moulds := t.moulds, slots := t.slots, queues := t.queues, out := t.out,
                   counters := t.counters, fresh := s.fresh + 1 })

/-! ## The command block -/

/-- R148, R149, R155, R217: PD_CREATE gives the next free protection domain, EP_CREATE the lowest
free endpoint of the host link in the partition asked for, EP_MCAST_BIND binds a landing region, and
the two destroys free what nothing is bound to. -/
def Obligations.CommandsProtection : Prop :=
  (∀ (s : State) (hl : HostId) (f : FnId), s.cmdReady (fidOf hl f) [] →
    s.within (fidOf hl f) 4 0x08 (Tbl.count (fun _ p => p.live && p.fid == fidOf hl f) s.pds)
      (Tbl.count (fun k p => k / 2 ^ 20 == hl.val && p.live) s.pds) 1 = true →
    s.pd (pdKey hl (s.link hl).nextPd) = {} → 0 < (s.link hl).nextPd →
    (s.link hl).nextPd < 2 ^ 20 →
    ∃ t, exec (.pdCreate hl f) s = .next t ∧ cmdEnded (fidOf hl f) 0x01 stOk s.toBlock t.toBlock ∧
      (t.fn (fidOf hl f)).res0 = BitVec.ofNat 64 (s.link hl).nextPd ∧
      t.pd (pdKey hl (s.link hl).nextPd) = { live := true, fid := fidOf hl f } ∧
      (∀ k, k ≠ pdKey hl (s.link hl).nextPd → t.pd k = s.pd k) ∧
      t = { s with pds := t.pds, links := t.links, fns := t.fns, fresh := t.fresh }) ∧
  (∀ (s : State) (hl : HostId) (f : FnId), s.cmdReady (fidOf hl f) [field 19 0] →
    s.pdOk (fidOf hl f) ((s.fn (fidOf hl f)).arg 0) = true →
    s.pdBound hl ((s.fn (fidOf hl f)).arg 0) = false →
    ∃ t, exec (.pdDestroy hl f) s = .next t ∧ cmdEnded (fidOf hl f) 0x02 stOk s.toBlock t.toBlock ∧
      (t.pd (pdKey hl ((s.fn (fidOf hl f)).arg 0))).live = false ∧
      (∀ k, k ≠ pdKey hl ((s.fn (fidOf hl f)).arg 0) → t.pd k = s.pd k) ∧
      t = { s with pds := t.pds, fns := t.fns, fresh := t.fresh }) ∧
  (∀ (s : State) (hl : HostId) (f : FnId) (pd part : Nat),
    s.cmdReady (fidOf hl f) [field 13 0 + field 15 15, field 19 0 + field 35 32] →
    bit ((s.fn (fidOf hl f)).arg 0) 15 = true → pd = bits ((s.fn (fidOf hl f)).arg 1) 19 0 →
    part = s.epPartition (fidOf hl f) (bits ((s.fn (fidOf hl f)).arg 1) 35 32) →
    s.within (fidOf hl f) 3 0x04 (Tbl.count (fun _ e => e.live && e.fid == fidOf hl f) s.eps)
      (Tbl.count (fun _ e => e.live && e.hl == hl.val) s.eps) 1 = true →
    0 < s.quota hl 3 → s.ep (s.quota hl 2) = {} → s.pdOk (fidOf hl f) pd = true →
    f.val ≠ 0 ∨ bit (s.quota hl 16) part = true →
    ∃ t, exec (.epCreate hl f) s = .next t ∧ cmdEnded (fidOf hl f) 0x10 stOk s.toBlock t.toBlock ∧
      (t.fn (fidOf hl f)).res0 = BitVec.ofNat 64 (s.quota hl 2) ∧
      t.ep (s.quota hl 2) = { live := true, hl := hl, fid := fidOf hl f, pd := pd,
                              partition := part } ∧
      (∀ e, e ≠ s.quota hl 2 → t.ep e = s.ep e) ∧
      t = { s with eps := t.eps, fns := t.fns, fresh := t.fresh }) ∧
  (∀ (s : State) (hl : HostId) (f : FnId), s.cmdReady (fidOf hl f) [field 13 0] →
    s.epOf (fidOf hl f) ((s.fn (fidOf hl f)).arg 0) = true →
    (∀ x ∈ s.ctxs, x.2.localEp = (s.fn (fidOf hl f)).arg 0 → x.2.st = .free) →
    ∃ t, exec (.epDestroy hl f) s = .next t ∧ cmdEnded (fidOf hl f) 0x11 stOk s.toBlock t.toBlock ∧
      (t.ep ((s.fn (fidOf hl f)).arg 0)).live = false ∧
      (∀ e, e ≠ (s.fn (fidOf hl f)).arg 0 → t.ep e = s.ep e) ∧
      t = { s with eps := t.eps, fns := t.fns, fresh := t.fresh }) ∧
  (∀ (s : State) (hl : HostId) (f : FnId) (e key k : Nat) (r : Reg),
    s.cmdReady (fidOf hl f) [field 13 0, field 31 0] → e = (s.fn (fidOf hl f)).arg 0 →
    key = (s.fn (fidOf hl f)).arg 1 → s.epOf (fidOf hl f) e = true → key ≠ 0 →
    s.keyCheck hl key = .region k r → r.spilled = false → r.pool = false → r.pd = (s.ep e).pd →
    ∃ t, exec (.epMcastBind hl f) s = .next t ∧
      cmdEnded (fidOf hl f) 0x12 stOk s.toBlock t.toBlock ∧
      t.ep e = { s.ep e with mcastKey := some key } ∧ (∀ x, x ≠ e → t.ep x = s.ep x) ∧
      t = { s with eps := t.eps, fns := t.fns, fresh := t.fresh })

/-- R124, R125, R236: CTX_CREATE puts a free context in SETUP with a random initial PSN, CTX_CONNECT
makes it ACTIVE with an empty window, CTX_QUERY reads its state, and CTX_DESTROY of a context in
ERROR or ABORTED frees it. -/
def Obligations.CommandsConnection : Prop :=
  (∀ (s : State) (hl : HostId) (f : FnId) (n : Nat),
    s.cmdReady (fidOf hl f) [field 13 0, field 31 0, field 47 0 + field 63 63] →
    s.epOf (fidOf hl f) ((s.fn (fidOf hl f)).arg 0) = true →
    bit ((s.fn (fidOf hl f)).arg 2) 63 = true → (s.link hl).ctxPantry.count = n → 0 < n →
    s.within (fidOf hl f) 5 0x0C
      (Tbl.count (fun _ x => x.fid == fidOf hl f && x.st != .free) s.ctxs)
      (Tbl.count (fun k x => ctxLink k == hl.val && x.st != .free) s.ctxs) 1 = true →
    (∀ i, i < n → (s.ctx (hl * 2 ^ 24 + i)).st = .free) →
    Tbl.count (fun _ x => x.cached) s.ctxs < s.ctxCacheSize →
    ∃ (t : State) (i : Nat), exec (.ctxCreate hl f) s = .next t ∧ i < n ∧
      cmdEnded (fidOf hl f) 0x20 stOk s.toBlock t.toBlock ∧
      (t.fn (fidOf hl f)).res0 = BitVec.ofNat 64 (hl * 2 ^ 24 + i) ∧
      (t.ctx (hl * 2 ^ 24 + i)).st = .setup ∧ (t.ctx (hl * 2 ^ 24 + i)).fid = fidOf hl f ∧
      (t.ctx (hl * 2 ^ 24 + i)).localEp = (s.fn (fidOf hl f)).arg 0 ∧
      (t.ctx (hl * 2 ^ 24 + i)).remoteFa = (s.fn (fidOf hl f)).arg 1 ∧
      (t.ctx (hl * 2 ^ 24 + i)).rto = 64 ∧ (t.ctx (hl * 2 ^ 24 + i)).retryLimit = 7 ∧
      (t.ctx (hl * 2 ^ 24 + i)).nextPsn = (t.ctx (hl * 2 ^ 24 + i)).localIpsn ∧
      (t.fn (fidOf hl f)).res1 = BitVec.ofNat 64 (t.ctx (hl * 2 ^ 24 + i)).localIpsn.toNat ∧
      (∀ c, c ≠ hl * 2 ^ 24 + i → t.ctx c = s.ctx c) ∧
      t = { s with ctxs := t.ctxs, fns := t.fns, fresh := t.fresh, banks := t.banks }) ∧
  (∀ (s : State) (hl : HostId) (f : FnId) (c : Nat),
    s.cmdReady (fidOf hl f) [field 25 0, field 25 0, field 31 0] →
    c = (s.fn (fidOf hl f)).arg 0 → s.ctxOwned (fidOf hl f) c = true → (s.ctx c).st = .setup →
    ∃ t, exec (.ctxConnect hl f) s = .next t ∧ cmdEnded (fidOf hl f) 0x21 stOk s.toBlock t.toBlock ∧
      t.ctx c = { s.ctx c with
        st := .active, remoteCtx := (s.fn (fidOf hl f)).arg 1,
        base := BitVec.ofNat 32 ((s.fn (fidOf hl f)).arg 2), map := 0, nextMsn := 0,
        nextMatch := 0, used := s.now } ∧
      (∀ d, d ≠ c → t.ctx d = s.ctx d) ∧
      t = { s with ctxs := t.ctxs, fns := t.fns, fresh := t.fresh }) ∧
  (∀ (s : State) (hl : HostId) (f : FnId) (c : Nat), s.cmdReady (fidOf hl f) [field 25 0] →
    c = (s.fn (fidOf hl f)).arg 0 → s.ctxOwned (fidOf hl f) c = true →
    ∃ t, exec (.ctxQuery hl f) s = .next t ∧ cmdEnded (fidOf hl f) 0x23 stOk s.toBlock t.toBlock ∧
      (t.fn (fidOf hl f)).res0 = BitVec.ofNat 64 ((s.ctx c).st.code +
        (if (s.ctx c).st = .error then (s.ctx c).errStatus else 0) * 256) ∧
      t = { s with fns := t.fns, fresh := t.fresh }) ∧
  (∀ (s : State) (hl : HostId) (f : FnId) (c : Nat),
    s.cmdReady (fidOf hl f) [field 25 0 + field 32 32] →
    c = bits ((s.fn (fidOf hl f)).arg 0) 25 0 → bit ((s.fn (fidOf hl f)).arg 0) 32 = false →
    s.ctxOwned (fidOf hl f) c = true → (s.ctx c).st = .error ∨ (s.ctx c).st = .aborted →
    s.ctxBusy c = false →
    ∃ t, exec (.ctxDestroy hl f) s = .next t ∧ cmdEnded (fidOf hl f) 0x22 stOk s.toBlock t.toBlock ∧
      (t.ctx c).st = .free ∧ (∀ d, d ≠ c → t.ctx d = s.ctx d) ∧
      (∀ q, t.queue q = { s.queue q with taken := (t.queue q).taken }) ∧
      t = { s with ctxs := t.ctxs, queues := t.queues, fillStash := t.fillStash, fns := t.fns,
                   fresh := t.fresh })

/-- R150, R151, R153: REG_REGISTER of a host range takes a free index and returns its key,
REG_DEREGISTER frees the index and advances its generation once nothing uses the region, and a
deregistration that had to wait ends through COMMAND_COMPLETION. R128, R154, R211, R234: a PF
installs a pantry that nothing lives in and removes it again; a VF that tries ends with ACCESS and
changes nothing else. -/
def Obligations.CommandsRegion : Prop :=
  (∀ (s : State) (hl : HostId) (f : FnId) (a : RegAsk) (i : Nat),
    s.cmdReady (fidOf hl f)
      [field 20 0 + field 29 24 + field 51 32, field 63 0, field 63 0, field 63 0] →
    a = regAsk (s.fn (fidOf hl f)) → a.pool = false → 1 ≤ a.length → a.length ≤ 2 ^ 40 →
    s.pdOk (fidOf hl f) a.pd = true → a.pasid = none →
    s.within (fidOf hl f) 7 0x10 (Tbl.count (fun _ r => r.live && r.fid == fidOf hl f) s.regs)
      (Tbl.count (fun k r => k / 2 ^ 24 == hl.val && r.live) s.regs) 1 = true →
    s.freeRegIndex hl = some i → Tbl.count (fun _ r => r.cached) s.regs < s.regCacheSize →
    ∃ t, exec (.regRegister hl f) s = .next t ∧ cmdEnded (fidOf hl f) 0x30 stOk s.toBlock t.toBlock ∧
      (t.fn (fidOf hl f)).res0 = BitVec.ofNat 64 (i + (s.reg (regKey hl i)).gen * 2 ^ 24) ∧
      (t.reg (regKey hl i)).live = true ∧ (t.reg (regKey hl i)).fid = fidOf hl f ∧
      (t.reg (regKey hl i)).pd = a.pd ∧ (t.reg (regKey hl i)).start = a.start ∧
      (t.reg (regKey hl i)).length = a.length ∧ (t.reg (regKey hl i)).dmaAddr = a.dmaAddr ∧
      (t.reg (regKey hl i)).rights = a.rights ∧
      (t.reg (regKey hl i)).gen = (s.reg (regKey hl i)).gen ∧
      (∀ k, k ≠ regKey hl i → t.reg k = s.reg k) ∧
      t = { s with regs := t.regs, fns := t.fns, fresh := t.fresh, banks := t.banks }) ∧
  (∀ (s : State) (hl : HostId) (f : FnId) (key k : Nat), s.cmdReady (fidOf hl f) [field 31 0] →
    key = (s.fn (fidOf hl f)).arg 0 → k = regKey hl (bits key 23 0) →
    bits key 23 0 < (s.link hl).regPantry.count → bits key 31 24 ≠ 0 →
    bits key 31 24 = (s.reg k).gen → (s.reg k).live = true → (s.reg k).fid = fidOf hl f →
    (s.reg k).pool = false → s.keyInUse (fidOf hl f) key = false → (∀ d ∈ s.dma, d.key ≠ some k) →
    (∀ a ∈ s.fillStash ++ s.delivery, a.passed ≠ some (k, (s.reg k).gen)) →
    ∃ t, exec (.regDeregister hl f) s = .next t ∧
      cmdEnded (fidOf hl f) 0x31 stOk s.toBlock t.toBlock ∧ (t.reg k).live = false ∧
      (t.reg k).gen = (if (s.reg k).gen = 255 then 1 else (s.reg k).gen + 1) ∧
      (∀ j, j ≠ k → t.reg j = s.reg j) ∧
      t = { s with regs := t.regs, links := t.links, eps := t.eps, delivery := t.delivery,
                   fillStash := t.fillStash, fns := t.fns, fresh := t.fresh }) ∧
  (∀ (s : State) (hl : HostId) (f : FnId) (key k : Nat), s.live = true → s.quiet →
    (s.fn (fidOf hl f)).wait = some (.regDeregister key) → k = regKey hl (bits key 23 0) →
    (s.reg k).pool = false → s.keyInUse (fidOf hl f) key = false → (∀ d ∈ s.dma, d.key ≠ some k) →
    (∀ a ∈ s.fillStash ++ s.delivery, a.passed ≠ some (k, (s.reg k).gen)) →
    ∃ t, exec (.commandCompletion hl f) s = .next t ∧
      cmdEnded (fidOf hl f) (s.fn (fidOf hl f)).lastCode stOk s.toBlock t.toBlock ∧
      (t.reg k).live = false ∧
      (t.reg k).gen = (if (s.reg k).gen = 255 then 1 else (s.reg k).gen + 1) ∧
      (∀ j, j ≠ k → t.reg j = s.reg j) ∧
      t = { s with regs := t.regs, links := t.links, eps := t.eps, delivery := t.delivery,
                   fillStash := t.fillStash, fns := t.fns, fresh := t.fresh }) ∧
  (∀ (s : State) (hl : HostId), s.cmdReady (fidOf hl 0) [field 0 0, field 63 0, field 24 0] →
    bit ((s.fn (fidOf hl 0)).arg 0) 0 = false → (s.fn (fidOf hl 0)).arg 1 % 2 ^ 21 = 0 →
    (s.fn (fidOf hl 0)).arg 2 % 8192 = 0 → 8192 ≤ (s.fn (fidOf hl 0)).arg 2 →
    (s.fn (fidOf hl 0)).arg 2 ≤ 2 ^ 24 → s.pantryUsed hl false = false →
    ∃ t, exec (.pantryInstall hl 0) s = .next t ∧
      cmdEnded (fidOf hl 0) 0x60 stOk s.toBlock t.toBlock ∧
      (t.link hl).ctxPantry = { on := true, base := (s.fn (fidOf hl 0)).arg 1,
                                count := (s.fn (fidOf hl 0)).arg 2 } ∧
      (t.link hl).regPantry = (s.link hl).regPantry ∧ (∀ n, n ≠ hl.val → t.link n = s.link n) ∧
      t = { s with links := t.links, ctxs := t.ctxs, dma := t.dma, fillStash := t.fillStash,
                   fns := t.fns, fresh := t.fresh }) ∧
  (∀ (s : State) (hl : HostId), s.cmdReady (fidOf hl 0) [field 0 0] →
    bit ((s.fn (fidOf hl 0)).arg 0) 0 = true → s.pantryUsed hl true = false →
    s.pantryReading hl (fun r => r == true) = false →
    ∃ t, exec (.pantryRemove hl 0) s = .next t ∧
      cmdEnded (fidOf hl 0) 0x61 stOk s.toBlock t.toBlock ∧
      (t.link hl).regPantry = {} ∧ (t.link hl).ctxPantry = (s.link hl).ctxPantry ∧
      (∀ n, n ≠ hl.val → t.link n = s.link n) ∧
      (∀ c, t.ctx c = { s.ctx c with inHand := (t.ctx c).inHand, stashed := (t.ctx c).stashed,
                                     waiting := (t.ctx c).waiting }) ∧
      t = { s with links := t.links, regs := t.regs, ctxs := t.ctxs, delivery := t.delivery,
                   fillStash := t.fillStash, fns := t.fns, fresh := t.fresh }) ∧
  (∀ (s : State) (hl : HostId) (f : FnId), f.val ≠ 0 → s.live = true → s.quiet →
    s.fnUp (fidOf hl f) = true → (s.fn (fidOf hl f)).wait = none →
    ∃ t, exec (.pantryInstall hl f) s = .next t ∧
      cmdEnded (fidOf hl f) 0x60 stAccess s.toBlock t.toBlock ∧
      t = { s with fns := t.fns, fresh := t.fresh })

/-- R174, R194, R195, R243, R244: MCTX_CREATE and MCTX_DESTROY make and remove a matching context,
RECV_CANCEL takes a posted receive back and completes it with FLUSHED, and Q_CREATE makes a queue. That its
first poll, or its first read ahead, falls due at once is the model's choice (log 171). -/
def Obligations.CommandsMatching : Prop :=
  (∀ (s : State) (hl : HostId) (f : FnId) (k : Nat),
    s.cmdReady (fidOf hl f) [field 15 0, field 19 0] →
    k = mctxKey hl ((s.fn (fidOf hl f)).arg 0) → (s.mctx k).live = false →
    s.pdOk (fidOf hl f) ((s.fn (fidOf hl f)).arg 1) = true →
    s.within (fidOf hl f) 9 0x14 (Tbl.count (fun _ m => m.live && m.fid == fidOf hl f) s.mctxs)
      (Tbl.count (fun k m => k / 2 ^ 16 == hl.val && m.live) s.mctxs) 1 = true →
    ∃ t, exec (.mctxCreate hl f) s = .next t ∧ cmdEnded (fidOf hl f) 0x40 stOk s.toBlock t.toBlock ∧
      (t.mctx k).live = true ∧ (t.mctx k).fid = fidOf hl f ∧
      (t.mctx k).pd = (s.fn (fidOf hl f)).arg 1 ∧ (t.mctx k).posted = [] ∧
      (t.mctx k).unexpected = [] ∧ (∀ j, j ≠ k → t.mctx j = s.mctx j) ∧
      t = { s with mctxs := t.mctxs, fns := t.fns, fresh := t.fresh }) ∧
  (∀ (s : State) (hl : HostId) (f : FnId) (k : Nat), s.cmdReady (fidOf hl f) [field 15 0] →
    k = mctxKey hl ((s.fn (fidOf hl f)).arg 0) → (s.mctx k).live = true →
    (s.mctx k).fid = fidOf hl f → (s.mctx k).posted = [] → (s.mctx k).overflow = [] →
    (∀ e ∈ s.inflight, e.2.mctx ≠ k) →
    ∃ t, exec (.mctxDestroy hl f) s = .next t ∧ cmdEnded (fidOf hl f) 0x41 stOk s.toBlock t.toBlock ∧
      (t.mctx k).live = false ∧ (∀ j, j ≠ k → t.mctx j = s.mctx j) ∧
      t = { s with mctxs := t.mctxs, fns := t.fns, fresh := t.fresh }) ∧
  (∀ (s : State) (hl : HostId) (f : FnId) (q k : Nat) (m : Mctx) (r : Posted),
    s.cmdReady (fidOf hl f) [field 14 0, field 15 0] → q = (s.fn (fidOf hl f)).arg 0 →
    r.q = q → r.idx = (s.fn (fidOf hl f)).arg 1 → (s.queue q).ty = 1 →
    (s.queue q).fid = fidOf hl f → r.idx < 2 ^ (s.queue q).log → s.mctxs = [(k, m)] →
    m.posted = [r] → r.trace = none → s.plainQueue q →
    ∃ t, exec (.recvCancel hl f) s = .next t ∧ cmdEnded (fidOf hl f) 0x42 stOk s.toBlock t.toBlock ∧
      (t.fn (fidOf hl f)).res0 = 0 ∧ (t.mctx k).posted = [] ∧
      completesEntry q r.idx r.desc stFlushed [] s.toBlock t.toBlock ∧
      t = { s with mctxs := t.mctxs, queues := t.queues, out := t.out, counters := t.counters,
                   fns := t.fns, fresh := t.fresh }) ∧
  (∀ (s : State) (hl : HostId) (f : FnId) (a : QAsk),
    s.cmdReady (fidOf hl f)
      [field 63 0, field 2 0 + field 11 4 + field 15 15 + field 55 16, field 19 0 + field 51 32,
        field 24 0] →
    a = qAsk (s.fn (fidOf hl f)) → a.ok (fidOf hl f) = true → a.pasid = none →
    s.pdOk (fidOf hl f) a.pd = true → a.eqValid = false → s.queues = [] →
    s.within (fidOf hl f) 1 0x00 0 0 1 = true →
    ∃ (t : State) (q : Nat), exec (.qCreate hl f) s = .next t ∧ q < 32768 ∧
      cmdEnded (fidOf hl f) 0x50 stOk s.toBlock t.toBlock ∧
      (t.fn (fidOf hl f)).res0 = BitVec.ofNat 64 q ∧ (t.queue q).live = true ∧
      (t.queue q).ty = a.ty ∧ (t.queue q).hl = hl.val ∧ (t.queue q).fid = fidOf hl f ∧
      (t.queue q).base = a.base ∧ (t.queue q).log = a.log ∧ (t.queue q).c = 0 ∧
      (t.queue q).phase = true ∧ (t.queue q).pollAt = some s.now ∧
      (∀ k, k ≠ q → t.queue k = s.queue k) ∧
      t = { s with queues := t.queues, counters := t.counters, fns := t.fns, fresh := t.fresh })

/-- R413, R415, R418, R419: DUMP_START, TRACE_START and STEP_START set up the function's own dump,
trace and step sampling; their stops end them; CTR_PROGRAM programs a counter of the host link's
share. -/
def Obligations.CommandsSampling : Prop :=
  (∀ (s : State) (hl : HostId) (f : FnId) (x : Fn), x = s.fn (fidOf hl f) →
    s.cmdReady (fidOf hl f) [field 3 0 + field 24 16, field 63 0, field 4 0 + field 63 32] →
    bits (x.arg 0) 3 0 = 1 → x.arg 1 % 64 = 0 → 2 ≤ bits (x.arg 2) 4 0 →
    bits (x.arg 2) 4 0 ≤ 16 → 10 ≤ bits (x.arg 2) 63 32 → bits (x.arg 2) 63 32 ≤ 10000000 →
    bits (x.arg 0) 23 16 < vectorCount (fidOf hl f) →
    ∃ t, exec (.dumpStart hl f) s = .next t ∧ cmdEnded (fidOf hl f) 0x70 stOk s.toBlock t.toBlock ∧
      (t.fn (fidOf hl f)).dump.on = true ∧ (t.fn (fidOf hl f)).dump.base = x.arg 1 ∧
      (t.fn (fidOf hl f)).dump.period = bits (x.arg 2) 63 32 ∧
      (t.fn (fidOf hl f)).dump.slot = 0 ∧ (t.fn (fidOf hl f)).trace = x.trace ∧
      t = { s with fns := t.fns, fresh := t.fresh }) ∧
  (∀ (s : State) (hl : HostId) (f : FnId), s.cmdReady (fidOf hl f) [field 3 0] →
    bits ((s.fn (fidOf hl f)).arg 0) 3 0 = 2 →
    (∃ t, exec (.dumpStop hl f) s = .next t ∧ cmdEnded (fidOf hl f) 0x70 stOk s.toBlock t.toBlock ∧
      (t.fn (fidOf hl f)).dump = { (s.fn (fidOf hl f)).dump with on := false } ∧
      t = { s with fns := t.fns, fresh := t.fresh }) ∧
    ∃ t, exec (.traceStop hl f) s = .next t ∧ cmdEnded (fidOf hl f) 0x71 stOk s.toBlock t.toBlock ∧
      (t.fn (fidOf hl f)).trace = { (s.fn (fidOf hl f)).trace with on := false } ∧
      t = { s with fns := t.fns, fresh := t.fresh }) ∧
  (∀ (s : State) (hl : HostId) (c ev : Nat) (x : Fn), x = s.fn (fidOf hl 0) →
    s.cmdReady (fidOf hl 0) [field 3 0, field 11 0 + field 25 16 + field 31 31, field 14 0] →
    bits (x.arg 0) 3 0 = 3 → c = bits (x.arg 1) 11 0 → ev = bits (x.arg 1) 23 16 → ev ≤ 18 →
    bits (x.arg 1) 25 24 = 0 → x.arg 2 = 0 → (s.ctrRange hl).1 ≤ c →
    c < (s.ctrRange hl).1 + (s.ctrRange hl).2 →
    ∃ t, exec (.ctrProgram hl 0) s = .next t ∧ cmdEnded (fidOf hl 0) 0x70 stOk s.toBlock t.toBlock ∧
      Tbl.get (0, 0, 0) t.ctrEvent c = (ev, 0, 0) ∧
      t.counter c = (if bit (x.arg 1) 31 then 0 else s.counter c) ∧
      (∀ d, d ≠ c → t.counter d = s.counter d) ∧
      (∀ d, d ≠ c → Tbl.get (0, 0, 0) t.ctrEvent d = Tbl.get (0, 0, 0) s.ctrEvent d) ∧
      t = { s with ctrEvent := t.ctrEvent, counters := t.counters, fns := t.fns,
                   fresh := t.fresh }) ∧
  (∀ (s : State) (hl : HostId) (f : FnId) (x : Fn) (q : Nat), x = s.fn (fidOf hl f) →
    s.cmdReady (fidOf hl f) [field 3 0, field 63 0, field 4 0, field 15 0 + field 47 32] →
    bits (x.arg 0) 3 0 = 1 → 6 ≤ bits (x.arg 2) 4 0 → bits (x.arg 2) 4 0 ≤ 16 →
    x.arg 1 % max 4096 (64 * 2 ^ bits (x.arg 2) 4 0) = 0 → bits (x.arg 3) 47 32 ≠ 0 →
    q = bits (x.arg 3) 14 0 → (s.queue q).live = true → (s.queue q).fid = fidOf hl f →
    (s.queue q).ty < 2 →
    ∃ t, exec (.traceStart hl f) s = .next t ∧
      cmdEnded (fidOf hl f) 0x71 stOk s.toBlock t.toBlock ∧
      (t.fn (fidOf hl f)).trace.on = true ∧ (t.fn (fidOf hl f)).trace.base = x.arg 1 ∧
      (t.fn (fidOf hl f)).trace.queue = q ∧
      (t.fn (fidOf hl f)).trace.period = bits (x.arg 3) 47 32 ∧
      (t.fn (fidOf hl f)).dump = x.dump ∧ t = { s with fns := t.fns, fresh := t.fresh }) ∧
  (∀ (s : State) (hl : HostId) (f : FnId) (x : Fn), x = s.fn (fidOf hl f) →
    s.cmdReady (fidOf hl f) [field 3 0, field 31 0, field 8 0] → bits (x.arg 0) 3 0 = 3 →
    x.arg 1 ≠ 0 → bits (x.arg 2) 7 0 < vectorCount (fidOf hl f) →
    ∃ t, exec (.stepStart hl f) s = .next t ∧ cmdEnded (fidOf hl f) 0x71 stOk s.toBlock t.toBlock ∧
      (t.fn (fidOf hl f)).trace.stepOn = true ∧
      (t.fn (fidOf hl f)).trace.stepPeriod = x.arg 1 ∧
      (t.fn (fidOf hl f)).trace.on = x.trace.on ∧ t = { s with fns := t.fns, fresh := t.fresh }) ∧
  (∀ (s : State) (hl : HostId) (f : FnId), s.cmdReady (fidOf hl f) [field 3 0] →
    bits ((s.fn (fidOf hl f)).arg 0) 3 0 = 4 →
    ∃ t, exec (.stepStop hl f) s = .next t ∧ cmdEnded (fidOf hl f) 0x71 stOk s.toBlock t.toBlock ∧
      (t.fn (fidOf hl f)).trace = { (s.fn (fidOf hl f)).trace with stepOn := false } ∧
      t = { s with fns := t.fns, fresh := t.fresh })

/-! ## Lock cells -/

/-- R337, R338, R341, R342: ACQUIRE, TRY and CLAIM grant a free cell to their writer; ACQUIRE of a
held cell waits at the back, and is refused where 32 wait; TRY and CLAIM of one are refused; RELEASE passes
the cell to the first waiter, and frees it where none waits; CANCEL takes the writer off the waiters, and by
the holder is a RELEASE; a grant asked for with `INT_EN` sends its vector, or sets its pending bit;
FORCE_RELEASE by the PF passes a held cell in mode 2 on and marks it `FORCED`, or frees it. That a forced
release leaves `ORPHANED` as it is is the model's reading (log 62). -/
def Obligations.LockRequests : Prop :=
  (∀ (s : State) (hl : HostId) (f : FnId) (cell : Fin 256) (w : BitVec 64),
    s.lockReach (fidOf hl f) cell w.toNat 1 → bit w.toNat 16 = false → (s.lock cell).mode ≠ 1 →
    (s.lock cell).held = false → (s.lock cell).waiters = [] →
    ∃ t, exec (.acquire hl f cell w) s = .next t ∧ (t.lock cell).held = true ∧
      (t.lock cell).owner = masterOf (fidOf hl f) ∧
      (t.lock cell).grantSeq = (s.lock cell).grantSeq + 1 ∧ lockOnly cell s t) ∧
  (∀ (s : State) (hl : HostId) (f : FnId) (cell : Fin 256) (w : BitVec 64),
    s.lockReach (fidOf hl f) cell w.toNat 1 → bit w.toNat 16 = false → (s.lock cell).mode ≠ 1 →
    (s.lock cell).held = true → (s.lock cell).place (masterOf (fidOf hl f)) = 0 →
    (s.lock cell).waiters.length < 32 →
    ∃ t, exec (.acquire hl f cell w) s = .next t ∧
      (t.lock cell).owner = (s.lock cell).owner ∧ (t.lock cell).held = true ∧
      (t.lock cell).waiters = (s.lock cell).waiters ++ [⟨masterOf (fidOf hl f), none⟩] ∧
      (t.lock cell).grantSeq = (s.lock cell).grantSeq ∧ lockOnly cell s t) ∧
  (∀ (s : State) (hl : HostId) (f : FnId) (cell : Fin 256) (w : BitVec 64),
    s.lockReach (fidOf hl f) cell w.toNat 2 → bit w.toNat 16 = false → (s.lock cell).mode ≠ 1 →
    (s.lock cell).place (masterOf (fidOf hl f)) = 0 →
    ∃ t, exec (.tryLock hl f cell w) s = .next t ∧ (t.lock cell).held = true ∧
      (t.lock cell).waiters = (s.lock cell).waiters ∧
      ((s.lock cell).held = false → (t.lock cell).owner = masterOf (fidOf hl f) ∧
        (t.lock cell).grantSeq = (s.lock cell).grantSeq + 1) ∧
      ((s.lock cell).held = true → (t.lock cell).owner = (s.lock cell).owner ∧
        masterOf (fidOf hl f) ∈ (t.lock cell).refused) ∧ lockOnly cell s t) ∧
  (∀ (s : State) (hl : HostId) (f : FnId) (cell : Fin 256) (w : BitVec 64) (a : LockWait)
    (l : List LockWait), s.lockReach (fidOf hl f) cell w.toNat 3 → (s.lock cell).held = true →
    (s.lock cell).owner = masterOf (fidOf hl f) → (s.lock cell).waiters = a :: l →
    a.vector = none →
    ∃ t, exec (.release hl f cell w) s = .next t ∧ (t.lock cell).held = true ∧
      (t.lock cell).owner = a.master ∧ (t.lock cell).waiters = l ∧
      (t.lock cell).orphaned = false ∧
      (t.lock cell).grantSeq = (s.lock cell).grantSeq + 1 ∧ lockOnly cell s t) ∧
  (∀ (s : State) (hl : HostId) (f : FnId) (cell : Fin 256) (w : BitVec 64),
    s.lockReach (fidOf hl f) cell w.toNat 3 → (s.lock cell).held = true →
    (s.lock cell).owner = masterOf (fidOf hl f) → (s.lock cell).waiters = [] →
    ∃ t, exec (.release hl f cell w) s = .next t ∧ (t.lock cell).held = false ∧
      (t.lock cell).waiters = [] ∧ (t.lock cell).grantSeq = (s.lock cell).grantSeq ∧
      lockOnly cell s t) ∧
  (∀ (s : State) (hl : HostId) (f : FnId) (cell : Fin 256) (w : BitVec 64),
    s.lockReach (fidOf hl f) cell w.toNat 4 → (s.lock cell).mode ≠ 1 →
    2 ≤ (s.lock cell).place (masterOf (fidOf hl f)) →
    ∃ t, exec (.cancel hl f cell w) s = .next t ∧
      t.lock cell = { s.lock cell with waiters := (t.lock cell).waiters } ∧
      (∀ x, x ∈ (t.lock cell).waiters ↔
        x ∈ (s.lock cell).waiters ∧ x.master ≠ masterOf (fidOf hl f)) ∧ lockOnly cell s t) ∧
  (∀ (s : State) (hl : HostId) (f : FnId) (cell : Fin 256) (w : BitVec 64),
    s.lockReach (fidOf hl f) cell w.toNat 5 → (s.lock cell).mode = 1 →
    bits w.toNat 43 32 = masterOf (fidOf hl f) → (s.lock cell).held = false →
    ∃ t, exec (.claim hl f cell w) s = .next t ∧ (t.lock cell).held = true ∧
      (t.lock cell).owner = masterOf (fidOf hl f) ∧
      (t.lock cell).grantSeq = (s.lock cell).grantSeq + 1 ∧ lockOnly cell s t) ∧
  (∀ (s : State) (hl : HostId) (cell : Fin 256) (w : BitVec 64) (a : LockWait) (l : List LockWait),
    s.lockReach (fidOf hl 0) cell w.toNat 6 → (s.lock cell).mode = 2 → (s.lock cell).held = true →
    (s.lock cell).waiters = a :: l → a.vector = none →
    ∃ t, exec (.forceRelease hl 0 cell w) s = .next t ∧ (t.lock cell).held = true ∧
      (t.lock cell).owner = a.master ∧ (t.lock cell).forced = true ∧ (t.lock cell).waiters = l ∧
      (t.lock cell).orphaned = (s.lock cell).orphaned ∧ lockOnly cell s t) ∧
  (∀ (s : State) (hl : HostId) (f : FnId) (cell : Fin 256) (w : BitVec 64) (v : Nat),
    s.lockReach (fidOf hl f) cell w.toNat 1 → bit w.toNat 16 = true → v = bits w.toNat 15 8 →
    v < vectorCount (fidOf hl f) → (s.lock cell).mode ≠ 1 → (s.lock cell).held = false →
    (s.lock cell).place (masterOf (fidOf hl f)) = 0 →
    ∃ t, exec (.acquire hl f cell w) s = .next t ∧ lockGranted cell (masterOf (fidOf hl f)) s.toBlock t.toBlock ∧
      vectorGoes (fidOf hl f) v s t) ∧
  (∀ (s : State) (hl : HostId) (f : FnId) (cell : Fin 256) (w : BitVec 64) (v : Nat),
    s.lockReach (fidOf hl f) cell w.toNat 2 → bit w.toNat 16 = true → v = bits w.toNat 15 8 →
    v < vectorCount (fidOf hl f) → (s.lock cell).mode ≠ 1 → (s.lock cell).held = false →
    (s.lock cell).place (masterOf (fidOf hl f)) = 0 →
    ∃ t, exec (.tryLock hl f cell w) s = .next t ∧ lockGranted cell (masterOf (fidOf hl f)) s.toBlock t.toBlock ∧
      vectorGoes (fidOf hl f) v s t) ∧
  (∀ (s : State) (hl : HostId) (f : FnId) (cell : Fin 256) (w : BitVec 64) (a : LockWait)
    (l : List LockWait) (v : Nat), s.lockReach (fidOf hl f) cell w.toNat 3 →
    (s.lock cell).held = true → (s.lock cell).owner = masterOf (fidOf hl f) →
    (s.lock cell).waiters = a :: l → a.vector = some v →
    ∃ t, exec (.release hl f cell w) s = .next t ∧ lockGranted cell a.master s.toBlock t.toBlock ∧
      (t.lock cell).waiters = l ∧ vectorGoes (masterFid a.master) v s t) ∧
  (∀ (s : State) (hl : HostId) (f : FnId) (cell : Fin 256) (w : BitVec 64),
    s.lockReach (fidOf hl f) cell w.toNat 1 → bit w.toNat 16 = false → (s.lock cell).mode ≠ 1 →
    (s.lock cell).held = true → (s.lock cell).place (masterOf (fidOf hl f)) = 0 →
    32 ≤ (s.lock cell).waiters.length →
    ∃ t, exec (.acquire hl f cell w) s = .next t ∧
      lockRefused cell (masterOf (fidOf hl f)) s t) ∧
  (∀ (s : State) (hl : HostId) (f : FnId) (cell : Fin 256) (w : BitVec 64),
    s.lockReach (fidOf hl f) cell w.toNat 5 → (s.lock cell).mode = 1 →
    bits w.toNat 43 32 = masterOf (fidOf hl f) → (s.lock cell).held = true →
    ∃ t, exec (.claim hl f cell w) s = .next t ∧
      lockRefused cell (masterOf (fidOf hl f)) s t) ∧
  (∀ (s : State) (hl : HostId) (f : FnId) (cell : Fin 256) (w : BitVec 64),
    s.lockReach (fidOf hl f) cell w.toNat 4 → (s.lock cell).mode ≠ 1 →
    (s.lock cell).held = true → (s.lock cell).owner = masterOf (fidOf hl f) →
    (s.lock cell).waiters = [] →
    ∃ t, exec (.cancel hl f cell w) s = .next t ∧ (t.lock cell).held = false ∧
      (t.lock cell).waiters = [] ∧ (t.lock cell).grantSeq = (s.lock cell).grantSeq ∧
      lockOnly cell s t) ∧
  (∀ (s : State) (hl : HostId) (cell : Fin 256) (w : BitVec 64),
    s.lockReach (fidOf hl 0) cell w.toNat 6 → (s.lock cell).mode = 2 → (s.lock cell).held = true →
    (s.lock cell).waiters = [] →
    ∃ t, exec (.forceRelease hl 0 cell w) s = .next t ∧ (t.lock cell).held = false ∧
      (t.lock cell).forced = false ∧ (t.lock cell).waiters = [] ∧
      (t.lock cell).grantSeq = (s.lock cell).grantSeq ∧
      (t.lock cell).orphaned = (s.lock cell).orphaned ∧ lockOnly cell s t)

/-! ## Waits that end, and the checks of a mould -/

/-- R281, R290: a gather packet that waits at the head of its VC for a record is delivered once one
is free, and its record is open. R276, R277, R278: the checks of a committed image end with VALID
and empty pours where every check of R277 passes and what the mould needs is free, and with INVALID
and the code of the first failure where one fails. -/
def Obligations.GatherAndMouldChecks : Prop :=
  (∀ (s : State) (row : Fin 17) (vc : Fin 16) (p : Pkt), s.live = true → s.quiet →
    pv row vc ∈ s.gatherHeld → s.copyHead row vc = none →
    (row.val = 16 → queueOf s.madeQ vc = []) →
    s.headOf row vc = some p → s.gatherStale p = false →
    p.malformed (s.pvcLimit row) = false →
    p.isMould = true → p.mode = 2 → sprueValid (Tbl.get 0 s.sprue p.tree) = true →
    s.gatherRoom p = true →
    ∃ t, exec (.gatherRecordGrant row vc) s = .next t ∧
      t.delivery = s.delivery ++ [{ pkt := p, row := row.val, vc := vc.val,
                                    entry := Tbl.get 0 s.sprue p.tree }] ∧ t.gathers.any (·.holds p) = true ∧
      pv row vc ∉ t.gatherHeld ∧
      (row.val = 16 → queueOf t.injQ vc = (queueOf s.injQ vc).drop 1) ∧
      (row.val ≠ 16 → queueOf t.rxQ (pv row vc) = (queueOf s.rxQ (pv row vc)).drop 1) ∧
      t = { s with injQ := t.injQ, rxQ := t.rxQ, delivery := t.delivery, nextPlace := t.nextPlace,
                   ports := t.ports, gatherHeld := t.gatherHeld, gathers := t.gathers,
                   freed := t.freed }) ∧
  (∀ (s : State) (m : Fin 1024), s.serves = true → s.quiet → (s.mould m).st = .checking →
    s.xferOn (0x6000 + m.val) 0 = none → (∀ w ∈ s.loadWait, w.1 ≠ m.val) →
    s.mouldFails (s.mould m) = none → s.mouldFits m (s.mould m) = true →
    ∃ t, exec (.mouldCheckDone m) s = .next t ∧ (t.mould m).st = .valid ∧
      (t.mould m).image = (s.mould m).image ∧ (t.mould m).pours = [] ∧ (t.mould m).nextSeq = 0 ∧
      (t.mould m).pages = (s.mould m).slotPages ∧ (t.mould m).checkCode = 0 ∧
      (∀ k, k ≠ m.val → t.mould k = s.mould k) ∧
      t = { s with moulds := t.moulds, slots := t.slots, badSlots := t.badSlots, freed := t.freed }) ∧
  (∀ (s : State) (m : Fin 1024) (code k : Nat), s.serves = true → s.quiet →
    (s.mould m).st = .checking → s.xferOn (0x6000 + m.val) 0 = none →
    (∀ w ∈ s.loadWait, w.1 ≠ m.val) → s.mouldFails (s.mould m) = some (code, some k) →
    ∃ t, exec (.mouldCheckDone m) s = .next t ∧
      t.mould m = { s.mould m with st := .invalid, checkCode := code, checkStep := k } ∧
      (∀ k, k ≠ m.val → t.mould k = s.mould k) ∧ t = { s with moulds := t.moulds }) ∧
  (∀ (s : State) (m : Fin 1024) (r : IdpReq), s.serves = true → s.quiet →
    (s.mould m).st = .checking → s.xferOn (0x6000 + m.val) 0 = none → s.loadWait = [(m.val, r)] →
    r.mtype = mtSegCommit → s.mouldFails (s.mould m) = none → s.mouldFits m (s.mould m) = true →
    ∃ t, exec (.mouldCheckDone m) s = .next t ∧ (t.mould m).st = .valid ∧ t.loadWait = [] ∧
      answered r stOk [] (s.mould m).image.length none s.toBlock t.toBlock ∧
      t = { s with moulds := t.moulds, slots := t.slots, badSlots := t.badSlots, freed := t.freed,
                   loadWait := [], seqs := t.seqs,
                   links := t.links, fns := t.fns, out := t.out })

/-! ## The register interface -/

/-- R226, R227, R228: UPDATE by a function strobes its own page and leaves every other function's;
UPDATE by the service processor strobes the reaction masks with group 23, which a gated block takes
when it is woken; a bit that a VF may not set is dropped. -/
def Obligations.RegisterUpdate : Prop :=
  (∀ (s : State) (hl : HostId) (f : FnId), s.live = true → s.quiet → s.fnUp (fidOf hl f) = true →
    (s.fn (fidOf hl f)).skip = [] → (s.fn (fidOf hl f)).spoilt = [] →
    (s.fn (fidOf hl f)).lost = 0 →
    ∃ t, exec (.update (.fn hl f) 1) s = .next t ∧
      t.fn (fidOf hl f) = { s.fn (fidOf hl f) with
        evtQueue := (s.fn (fidOf hl f)).evtQueueSh, evtEnable := (s.fn (fidOf hl f)).evtEnableSh } ∧
      (∀ g, g ≠ fidOf hl f → t.fn g = s.fn g) ∧ t = { s with fns := t.fns }) ∧
  (∀ s : State, s.phase = .running → s.quench = false → s.clockOn clkSvc = true → s.quiet →
    ∃ t, exec (.update .sp 0x800000) s = .next t ∧
      (∀ k src, k < 136 → src < 64 →
        t.reactOf k src = if s.blkGated k then s.reactOf k src else s.reactShOf k src) ∧
      (∀ k, k ∈ t.reactDue ↔ k < 136 ∧ s.blkGated k = true) ∧
      t = { s with react := t.react, reactDue := t.reactDue }) ∧
  (∀ (s : State) (hl : HostId) (f : FnId), f.val ≠ 0 → s.live = true → s.quiet →
    s.fnUp (fidOf hl f) = true → s.muted (blkHl hl) 1 →
    (s.fn (fidOf hl f)).badAccess.getLsbD 31 = false →
    ∃ t, exec (.update (.fn hl f) 2) s = .next t ∧ flagged (blkHl hl) 1 noUnit s.toBlock t.toBlock ∧
      t.fn (fidOf hl f) = { s.fn (fidOf hl f) with
        badAccess := BitVec.ofNat 32 (0x18 + 2 ^ 26 + 2 ^ 28 + 2 ^ 31) } ∧
      (∀ g, g ≠ fidOf hl f → t.fn g = s.fn g) ∧ t = { s with fns := t.fns, flt := t.flt })

/-- R217, R233, R237: Q_WAKE returns a queue of the function to its base interval and makes its poll
due; TG_REBIND moves an endpoint to a partition that is allowed, and answers FENCED for one that is
not. R353: MAILBOX_GO copies the request into the queue of requests and sets `BUSY`; a `GO` while
`BUSY` is 1 is dropped and sets `OVERRUN`; a length out of range is answered with MALFORMED at once.
-/
def Obligations.RegisterActions : Prop :=
  (∀ (s : State) (hl : HostId) (f : FnId) (v : BitVec 32), s.live = true → s.quiet →
    s.fnUp (fidOf hl f) = true → v.toNat < 2 ^ 15 → (s.queue v.toNat).live = true →
    (s.queue v.toNat).fid = fidOf hl f → (s.queue v.toNat).ty < 2 →
    ∃ t, exec (.qWake hl f v) s = .next t ∧
      t.queue v.toNat = { s.queue v.toNat with interval := (s.queue v.toNat).pollBase,
                                               pollAt := some s.now } ∧
      (∀ q, q ≠ v.toNat → t.queue q = s.queue q) ∧
      (∀ c, c ≠ 834 → t.counter c = s.counter c) ∧
      t = { s with queues := t.queues, counters := t.counters }) ∧
  (∀ (s : State) (hl : HostId) (v : BitVec 32) (e part : Nat), s.live = true → s.quiet →
    s.fnUp (fidOf hl 0) = true → bit v.toNat 31 = true → bits v.toNat 15 14 = 0 →
    bits v.toNat 30 20 = 0 → e = bits v.toNat 13 0 → part = bits v.toNat 19 16 →
    s.epInRange hl e = true → (s.ep e).live = true → bit (s.quota hl 16) part = true →
    ∃ t, exec (.tgRebind hl v) s = .next t ∧ t.ep e = { s.ep e with partition := part } ∧
      (∀ k, k ≠ e → t.ep k = s.ep k) ∧ t.link hl = { s.link hl with rebindStatus := stOk } ∧
      (∀ n, n ≠ hl.val → t.link n = s.link n) ∧ t = { s with eps := t.eps, links := t.links }) ∧
  (∀ (s : State) (hl : HostId) (v : BitVec 32) (e part : Nat), s.live = true → s.quiet →
    s.fnUp (fidOf hl 0) = true → bit v.toNat 31 = true → bits v.toNat 15 14 = 0 →
    bits v.toNat 30 20 = 0 → e = bits v.toNat 13 0 → part = bits v.toNat 19 16 →
    s.epInRange hl e = true → (s.ep e).live = true → bit (s.quota hl 16) part = false →
    ∃ t, exec (.tgRebind hl v) s = .next t ∧ t.link hl = { s.link hl with rebindStatus := stFenced } ∧
      (∀ n, n ≠ hl.val → t.link n = s.link n) ∧ t = { s with links := t.links }) ∧
  (∀ (s : State) (hl : HostId) (v : BitVec 32), s.live = true → s.quiet →
    s.fnUp (fidOf hl 0) = true → bit v.toNat 0 = true → (s.link hl).mbxBusy = false →
    bits v.toNat 7 2 = 0 → bits v.toNat 31 29 = 0 → 32 ≤ bits v.toNat 28 16 →
    bits v.toNat 28 16 ≤ 4096 →
    ∃ t, exec (.mailboxGo hl v) s = .next t ∧ (t.link hl).mbxBusy = true ∧
      t.idpQ = s.idpQ ++ [⟨.mailbox hl,
        (List.range (bits v.toNat 28 16)).map fun i => Tbl.get 0 (s.link hl).mbxReq i, false⟩] ∧
      (∀ n, n ≠ hl.val → t.link n = s.link n) ∧ t = { s with links := t.links, idpQ := t.idpQ }) ∧
  (∀ (s : State) (hl : HostId) (v : BitVec 32), s.live = true → s.quiet →
    s.fnUp (fidOf hl 0) = true → bit v.toNat 0 = true → (s.link hl).mbxBusy = true →
    bits v.toNat 7 2 = 0 → bits v.toNat 31 29 = 0 →
    ∃ t, exec (.mailboxGo hl v) s = .next t ∧ t.link hl = { s.link hl with mbxOverrun := true } ∧
      (∀ n, n ≠ hl.val → t.link n = s.link n) ∧ t = { s with links := t.links }) ∧
  (∀ (s : State) (hl : HostId) (v : BitVec 32), s.live = true → s.quiet →
    s.fnUp (fidOf hl 0) = true → bit v.toNat 0 = true → (s.link hl).mbxBusy = false →
    bits v.toNat 7 1 = 0 → bits v.toNat 31 29 = 0 →
    bits v.toNat 28 16 < 32 ∨ 4096 < bits v.toNat 28 16 →
    ∃ t, exec (.mailboxGo hl v) s = .next t ∧ (t.link hl).mbxBusy = false ∧
      (t.link hl).mbxDone = true ∧
      (t.link hl).mbxReply = zeros 19 ++ toLe 1 stMalformed ++ zeros 12 ∧
      (∀ n, n ≠ hl.val → t.link n = s.link n) ∧ t = { s with links := t.links })

/-- R12, R13, R223, R225: a write of 8 bytes to a command argument sets it; a write of `EVT_QUEUE`
reaches the shadow copy alone; a write of a reserved location is dropped and recorded. R222, R223,
R224: reads leave the registers they read. The lower half of a 64-bit register latches the upper
half, which the next read of the upper half returns; a read of a reserved location is aborted and
recorded. R202, R205: configuration space shows the Device ID, and takes the power state; that its
item 17 is the Device ID and item 5 the power state is the model's numbering (log 20). -/
def Obligations.RegisterAccess : Prop :=
  (∀ (s : State) (hl : HostId) (f : FnId) (k : Fin 4) (v : BitVec 64), s.live = true → s.quiet →
    s.fnUp (fidOf hl f) = true →
    ∃ t, exec (.registerWrite (.fn hl f) (0x100 + 8 * k.val) 8 v) s = .next t ∧
      t.fn (fidOf hl f) = { s.fn (fidOf hl f) with args := (s.fn (fidOf hl f)).args.set k v } ∧
      (∀ g, g ≠ fidOf hl f → t.fn g = s.fn g) ∧ t = { s with fns := t.fns }) ∧
  (∀ (s : State) (hl : HostId) (f : FnId) (v : BitVec 64), s.live = true → s.quiet →
    s.fnUp (fidOf hl f) = true → v.toNat < 2 ^ 16 →
    ∃ t, exec (.registerWrite (.fn hl f) 0x10 4 v) s = .next t ∧
      t.fn (fidOf hl f) = { s.fn (fidOf hl f) with
        evtQueueSh := BitVec.ofNat 32 v.toNat,
        spoilt := (s.fn (fidOf hl f)).spoilt.filter fun o => o != 0x10 } ∧
      (∀ g, g ≠ fidOf hl f → t.fn g = s.fn g) ∧ t = { s with fns := t.fns }) ∧
  (∀ (s : State) (hl : HostId) (f : FnId) (v : BitVec 64), s.live = true → s.quiet →
    s.fnUp (fidOf hl f) = true → s.muted (blkHl hl) 1 →
    ∃ t, exec (.registerWrite (.fn hl f) 0x0C 4 v) s = .next t ∧
      flagged (blkHl hl) 1 noUnit s.toBlock t.toBlock ∧
      (t.fn (fidOf hl f)).badAccess = (if (s.fn (fidOf hl f)).badAccess.getLsbD 31 then
        (s.fn (fidOf hl f)).badAccess else BitVec.ofNat 32 (0x0C + 2 ^ 28 + 2 ^ 31)) ∧
      (∀ g, g ≠ fidOf hl f → t.fn g = s.fn g) ∧ t = { s with fns := t.fns, flt := t.flt }) ∧
  (∀ (s : State) (hl : HostId) (f : FnId), s.phase = .running → s.quiet →
    s.fnUp (fidOf hl f) = true →
    exec (.reservedRead (.fn hl f) 0x28 8) s = .next { s with
      out := s.out ++ [.regData (.fn hl f) 0x28 (s.ftime % 2 ^ 64)] }) ∧
  (∀ (s : State) (hl : HostId) (f : FnId), s.phase = .running → s.quiet →
    s.fnUp (fidOf hl f) = true →
    ∃ t, exec (.lowerHalfRead (.fn hl f) 0x28) s = .next t ∧
      t.out = s.out ++ [.regData (.fn hl f) 0x28 (s.ftime % 2 ^ 32)] ∧
      Tbl.get none (t.fn (fidOf hl f)).latch 0x28 =
        some (BitVec.ofNat 32 (s.ftime % 2 ^ 64 / 2 ^ 32)) ∧
      t.fn (fidOf hl f) = { s.fn (fidOf hl f) with latch := (t.fn (fidOf hl f)).latch } ∧
      (∀ g, g ≠ fidOf hl f → t.fn g = s.fn g) ∧ t = { s with fns := t.fns, out := t.out }) ∧
  (∀ (s : State) (hl : HostId) (f : FnId) (h : BitVec 32), s.phase = .running → s.quiet →
    s.fnUp (fidOf hl f) = true → Tbl.get none (s.fn (fidOf hl f)).latch 0x28 = some h →
    ∃ t, exec (.reservedRead (.fn hl f) 0x2C 4) s = .next t ∧
      t.out = s.out ++ [.regData (.fn hl f) 0x2C h.toNat] ∧
      Tbl.get none (t.fn (fidOf hl f)).latch 0x28 = none ∧
      (∀ g, g ≠ fidOf hl f → t.fn g = s.fn g) ∧ t = { s with fns := t.fns, out := t.out }) ∧
  (∀ (s : State) (hl : HostId) (f : FnId), s.live = true → s.quiet → s.fnUp (fidOf hl f) = true →
    s.muted (blkHl hl) 1 →
    ∃ t, exec (.reservedRead (.fn hl f) 0x0C 4) s = .next t ∧
      t.out = s.out ++ [.abort (.fn hl f) 0x0C] ∧ flagged (blkHl hl) 1 noUnit s.toBlock t.toBlock ∧
      t.fn (fidOf hl f) = { s.fn (fidOf hl f) with
        badAccess := if (s.fn (fidOf hl f)).badAccess.getLsbD 31 then (s.fn (fidOf hl f)).badAccess
          else BitVec.ofNat 32 (0x0C + 2 ^ 31),
        aer := { (s.fn (fidOf hl f)).aer with
          uncStatus := (s.fn (fidOf hl f)).aer.uncStatus ||| (1#32 <<< 15) } } ∧
      (∀ g, g ≠ fidOf hl f → t.fn g = s.fn g) ∧
      t = { s with fns := t.fns, flt := t.flt, out := t.out }) ∧
  (∀ (s : State) (hl : HostId) (f : FnId) (size : Nat), s.phase = .running → s.quiet →
    s.fnThere (fidOf hl f) = true →
    exec (.reservedRead (.cfg hl f) 17 size) s = .next { s with
      out := s.out ++ [.regData (.cfg hl f) 17 (if f.val = 0 then 0x6416 else 0x6417)] }) ∧
  (∀ (s : State) (hl : HostId) (f : FnId) (size : Nat), s.phase = .running → s.quiet →
    s.fnThere (fidOf hl f) = true →
    ∃ t, exec (.registerWrite (.cfg hl f) 5 size 3) s = .next t ∧
      t.fn (fidOf hl f) = { s.fn (fidOf hl f) with d3hot := true } ∧
      (∀ g, g ≠ fidOf hl f → t.fn g = s.fn g) ∧ t = { s with fns := t.fns })

/-! ## Clocks -/

/-- R429: HOLD_SET holds a domain; GO of a held domain forces its source, and of one that is not
held is refused with BAD_ACCESS; HOLD_CLR releases it, and fabric time then runs unsynchronised. -/
def Obligations.ClockForce : Prop :=
  (∀ (s : State) (d : DomainId) (src : Fin 4), s.phase = .running → s.quench = false →
    s.clockOn clkSvc = true → s.quiet →
    (s.clk d).held = true → src.val < 2 →
    ∃ t, exec (.clkForceGo d src) s = .next t ∧
      t.clk d = { s.clk d with cur := src, src := src, srcSh := src, switching := false,
                               hung := false, queued := none } ∧
      (∀ e, e ≠ d.val → t.clk e = s.clk e) ∧ (d.val ≠ clkTime → t.time = s.time) ∧
      t = { s with clks := t.clks, time := t.time }) ∧
  (∀ (s : State) (d : DomainId) (src : Fin 4), s.phase = .running → s.quench = false →
    s.clockOn clkSvc = true → s.quiet →
    (s.clk d).held = false → s.muted blkClkgen 1 →
    ∃ t, exec (.clkForceGo d src) s = .next t ∧ flagged blkClkgen 1 noUnit s.toBlock t.toBlock ∧
      t = { s with flt := t.flt }) ∧
  (∀ (s : State) (d : DomainId), s.phase = .running → s.quench = false → s.clockOn clkSvc = true → s.quiet →
    20 < d.val → d.val ≠ 24 →
    ∃ t, exec (.holdSet d) s = .next t ∧ t.clk d = { s.clk d with held := true } ∧
      (∀ e, e ≠ d.val → t.clk e = s.clk e) ∧ t = { s with clks := t.clks }) ∧
  (∀ (s : State) (p : PortId) (d : DomainId), d.val = p.val → s.phase = .running →
    s.quench = false → s.clockOn clkSvc = true → s.quiet → (s.clk d).held = false →
    (s.port p).st = .exchange →
    ∃ t, exec (.holdSet d) s = .next t ∧ (t.clk d).held = true ∧
      (∀ e, e ≠ d.val → t.clk e = s.clk e) ∧
      t.port p = { s.port p with st := .failed, since := s.now, oosWhileFailed := none,
                                     hasFailed := true, refuse4At := none } ∧
      (∀ q, q ≠ p.val → t.port q = s.port q) ∧ t = { s with clks := t.clks, ports := t.ports }) ∧
  (∀ (s : State) (d : DomainId), s.phase = .running → s.quench = false → s.clockOn clkSvc = true → s.quiet →
    (s.clk d).held = true →
    ∃ t, exec (.holdClr d) s = .next t ∧ (t.clk d).held = false ∧
      (d.val = clkTime → t.time.synced = false) ∧
      (∀ e, e ≠ d.val → (t.clk e).held = (s.clk e).held) ∧
      (∀ p, (s.port p).st ≠ .disabled → t.port p = s.port p) ∧
      t = { s with clks := t.clks, time := t.time, ports := t.ports, links := t.links })

/-- R424, R426: a PLL that loses its reference stops its output and raises PLL_UNLOCK, and at its
reset mask the interrupt and the fatal pin follow; one that relocks starts its output again; a
switch of source takes place once both sources have edges. -/
def Obligations.ClockSources : Prop :=
  (∀ (s : State) (k : Fin 14) (blk : Nat), s.phase = .running → s.quench = false → s.quiet →
    s.locked k = true → k.val < 8 → blk = 56 + k.val / 2 → s.reactOf blk 8 = 17 →
    ∃ t, exec (.pllReferenceLoss k) s = .next t ∧ t.locked k = false ∧
      (∀ j, j ≠ k.val → t.locked j = s.locked j) ∧ flagged blk 8 noUnit s.toBlock t.toBlock ∧
      t.out = s.out ++ [.spInt (srcCode blk 8 noUnit)] ∧
      t = { s with plls := t.plls, flt := t.flt, fatalLow := true, out := t.out }) ∧
  (∀ (s : State) (k : Fin 14), s.phase = .running → s.quiet → s.pllPowered k = true →
    s.locked k = false →
    ∃ t, exec (.pllLock k) s = .next t ∧ t.locked k = true ∧
      (∀ j, j ≠ k.val → t.locked j = s.locked j) ∧
      (∀ p, (s.port p).st ≠ .disabled → t.port p = s.port p) ∧
      t = { s with plls := t.plls, clks := t.clks, ports := t.ports, links := t.links }) ∧
  (∀ (s : State) (d : DomainId), s.phase = .running → s.quiet → (s.clk d).switching = true →
    (s.clk d).hung = false → (s.clk d).gated = false → (s.clk d).queued = none →
    s.sourceRuns d (s.clk d).cur = true → s.sourceRuns d (s.clk d).src = true →
    ∃ t, exec (.clockSwitchDone d) s = .next t ∧ (t.clk d).cur = (s.clk d).src ∧
      (t.clk d).switching = false ∧ (∀ p, (s.port p).st ≠ .disabled → t.port p = s.port p) ∧
      t = { s with clks := t.clks, time := t.time, ports := t.ports, links := t.links })

/-- R428, R430: a monitor window with 16 edges or more records them; one with fewer raises CLK_STOP
and marks a domain stopped; SVC or AON stopped while on FOSC stops the device with its fatal pin
low, and stopped otherwise is forced to FOSC. -/
def Obligations.ClockMonitors : Prop :=
  (∀ (s : State) (d : Fin 26) (n : Nat), s.phase = .running → s.quiet → d.val < 25 →
    s.monitored d = true → 16 ≤ n →
    ∃ t, exec (.clockMonitorWindow d n) s = .next t ∧
      t.clk d = { s.clk d with edges := min n (2 ^ 24 - 1), stopped := false } ∧
      (∀ e, e ≠ d.val → t.clk e = s.clk e) ∧ t = { s with clks := t.clks }) ∧
  (∀ (s : State) (d : Fin 26) (n : Nat), s.phase = .running → s.quiet → s.quench = false →
    d.val < 25 → d.val ≠ 20 → d.val ≠ 24 → s.monitored d = true → n < 16 → s.muted blkClkgen 9 →
    ∃ t, exec (.clockMonitorWindow d n) s = .next t ∧ (t.clk d).stopped = true ∧
      (t.clk d).edges = n ∧ (t.clk d).hung = ((s.clk d).hung || (s.clk d).switching) ∧
      (∀ e, e ≠ d.val → t.clk e = s.clk e) ∧ flagged blkClkgen 9 noUnit s.toBlock t.toBlock ∧
      t = { s with clks := t.clks, flt := t.flt }) ∧
  (∀ (s : State) (d : Fin 26) (n : Nat), s.phase = .running → s.quiet →
    d.val = 20 ∨ d.val = 24 → s.monitored d = true → n < 16 → (s.clk d).cur = 0 →
    (s.clk d).switching = false ∨ s.sourceRuns d (s.clk d).src = true →
    ∃ t, exec (.clockMonitorWindow d n) s = .next t ∧ t.phase = .dead ∧ t.fatalLow = true ∧
      (∀ e, e ≠ d.val → t.clk e = s.clk e) ∧
      t = { s with clks := t.clks, flt := t.flt, phase := .dead, fatalLow := true }) ∧
  (∀ (s : State) (d : Fin 26) (n : Nat), s.phase = .running → s.quiet → s.muted blkClkgen 9 →
    d.val = 20 ∨ d.val = 24 → s.monitored d = true → n < 16 →
    (s.clk d).cur ≠ 0 ∨ ((s.clk d).switching = true ∧ s.sourceRuns d (s.clk d).src = false) →
    ∃ t, exec (.clockMonitorWindow d n) s = .next t ∧ (t.clk d).cur = 0 ∧
      (t.clk d).switching = false ∧ (t.clk d).hung = false ∧ t.resetCause = 5 ∧
      (∀ e, e ≠ d.val → t.clk e = s.clk e) ∧ flagged blkClkgen 9 noUnit s.toBlock t.toBlock ∧
      t = { s with clks := t.clks, flt := t.flt, resetCause := 5 })

/-- R431, R447, R448, R503: an island that answers has its clock stopped, or its domain switched off, with the
contents of its registers; one that
has not answered within `GATE_TIMEOUT` keeps running, and the request is given up. R447, R448: a
domain whose ramp ends is on, and every other that was on stays on (`luck.rext` is the model's free value of
which calibration resistors are bad, log 166); a port's domains are asked off 1
ms after it has entered DISABLED, and a lane die's bridge once all its other domains have been off
for 1 ms. -/
def Obligations.GatesAndDomains : Prop :=
  (∀ (s : State) (d : DomainId), s.phase = .running → s.quiet →
    (s.clk d).gateAsked.isSome = true → s.mayQuiet d = true →
    ∃ t, exec (.gateQuiescence (.clock d)) s = .next t ∧
      t.clk d = { s.clk d with gated := true, gateAsked := none } ∧
      (∀ e, e ≠ d.val → t.clk e = s.clk e) ∧ t = { s with clks := t.clks }) ∧
  (∀ (s : State) (e : Fin 149), s.phase = .running → s.quiet → (s.dom e).st = .on →
    (s.dom e).quietAsked.isSome = true → (s.dom e).busy = false →
    ∃ t, exec (.gateQuiescence (.power e)) s = .next t ∧ t.dom e = { offAt := s.now } ∧
      (∀ k, k ≠ e.val → t.dom k = s.dom k) ∧ (e.val ≠ elMnet → t.i3cAddr = s.i3cAddr) ∧
      (¬(33 ≤ e.val ∧ e.val < 41) → ¬(129 ≤ e.val ∧ e.val < 133) → t.plls = s.plls) ∧
      (∀ k, s.domBlk e = some k → t.fltOf k = {}) ∧
      (∀ k, s.domBlk e ≠ some k → t.fltOf k = s.fltOf k) ∧
      (∀ k src, src < 64 → s.domBlk e ≠ some k → t.reactOf k src = s.reactOf k src) ∧
      t = { s with pwr := t.pwr, plls := t.plls, i3cAddr := t.i3cAddr, mctpEid := t.mctpEid,
                   flt := t.flt, react := t.react, reactSh := t.reactSh }) ∧
  (∀ (s : State) (d : DomainId) (at_ : Nat), s.phase = .running → s.quiet →
    (s.clk d).gateAsked = some at_ → at_ + s.gateTimeout * 1000 ≤ s.now →
    ∃ t, exec (.gateTimeout (.clock d)) s = .next t ∧
      t.clk d = { s.clk d with gateAsked := none, gateBusy := true } ∧
      (∀ e, e ≠ d.val → t.clk e = s.clk e) ∧ t = { s with clks := t.clks }) ∧
  (∀ (s : State) (e : Fin 149) (at_ : Nat), s.phase = .running → s.quiet →
    (s.dom e).quietAsked = some at_ → at_ + s.gateTimeout * 1000 ≤ s.now →
    (s.dom e).busy = false →
    ∃ t, exec (.gateTimeout (.power e)) s = .next t ∧
      t.dom e = { s.dom e with quietAsked := none } ∧ (∀ k, k ≠ e.val → t.dom k = s.dom k) ∧
      t = { s with pwr := t.pwr }) ∧
  (∀ (s : State) (e : Fin 149), s.phase = .running → s.quiet → (s.dom e).st = .ramping →
    s.luck.rext = 0 →
    ∃ t, exec (.domainRampDone e) s = .next t ∧ (t.dom e).st = .on ∧
      (∀ k, (s.dom k).st = .on → (t.dom k).st = .on) ∧
      (∀ p, (s.port p).st ≠ .disabled → t.port p = s.port p) ∧
      (∀ k, s.domBlk e ≠ some k → t.fltOf k = s.fltOf k) ∧
      t = { s with pwr := t.pwr, banks := t.banks, clks := t.clks, ports := t.ports,
                   links := t.links, flt := t.flt, luck := t.luck, fresh := t.fresh }) ∧
  (∀ (s : State) (p : PortId), s.phase = .running → (s.port p).st = .disabled →
    s.portEnabled p = false → (s.port p).since + 10 ^ 6 ≤ s.now →
    (s.dom (elSerdes p)).st = .on → (s.dom (elLinkEngine p)).st = .on →
    ∃ t, exec (.portPowerOff p) s = .next t ∧
      (t.dom (elSerdes p)).quietAsked.isSome = true ∧
      (t.dom (elLinkEngine p)).quietAsked.isSome = true ∧ (∀ k, (t.dom k).st = (s.dom k).st) ∧
      t = { s with pwr := t.pwr }) ∧
  (∀ (s : State) (n : Fin 4), s.phase = .running → (dieDomains n).all s.longOff = true →
    s.dieEnabled n = [] → (s.dom (elBridge n)).st = .on →
    ∃ t, exec (.bridgePowerOff n) s = .next t ∧ (t.dom (elBridge n)).quietAsked.isSome = true ∧
      (∀ k, k ≠ elBridge n → t.dom k = s.dom k) ∧ t = { s with pwr := t.pwr })

/-- R434 to R438: a tempo meter keeps the mean of its last 16 counts; the governor writes the
voltage its plan asks for, once for every attempt, records what the rail reports, and after three failed
attempts stops with `AVS_FAULT`. -/
def Obligations.Governor : Prop :=
  (∀ (s : State) (r : Fin 4) (n : Nat) (l : List Nat), s.phase = .running →
    s.domainRuns clkTime = true → bit s.regions r = true → s.gov.tempo.length = 4 →
    s.gov.counts.length = 4 → l = (n :: nth [] s.gov.counts r).take 16 →
    ∃ t, exec (.tempoMeter r n) s = .next t ∧ nth [] t.gov.counts r = l ∧
      nth 0 t.gov.tempo r = min (l.foldl (· + ·) 0 / l.length) 0xFFFF ∧
      (∀ k, k ≠ r.val → nth 0 t.gov.tempo k = nth 0 s.gov.tempo k) ∧
      t.gov.vdd = s.gov.vdd ∧ t = { s with gov := t.gov }) ∧
  (∀ (s : State) (k : Fin 3) (mv ma : Nat), s.govRuns = true → s.quiet → s.govPlan.1 ≠ s.vddNow →
    ∃ t, exec (.governorIteration (.good k mv ma)) s = .next t ∧
      t.out = s.out ++ List.replicate (k.val + 1) (.avsWrite s.govPlan.1) ∧
      t.gov = { s.gov with atLimit := s.govPlan.2, vdd := mv, ma := ma } ∧
      t = { s with gov := t.gov, out := t.out }) ∧
  (∀ (s : State) (k : Fin 3) (mv ma : Nat), s.govRuns = true → s.quiet → s.govPlan.1 = s.vddNow →
    s.gov.vdd ≠ 0 →
    ∃ t, exec (.governorIteration (.good k mv ma)) s = .next t ∧
      t.gov = { s.gov with atLimit := s.govPlan.2, ma := ma } ∧ t = { s with gov := t.gov }) ∧
  (∀ s : State, s.govRuns = true → s.quiet → s.muted blkClkgen 4 →
    ∃ t, exec (.governorIteration .failed) s = .next t ∧ t.gov.avsFault = true ∧
      t.gov.vdd = s.gov.vdd ∧ flagged blkClkgen 4 noUnit s.toBlock t.toBlock ∧
      t.out = s.out ++
        (if s.govPlan.1 = s.vddNow then [] else List.replicate 3 (.avsWrite s.govPlan.1)) ∧
      t = { s with gov := t.gov, flt := t.flt, out := t.out })

/-! ## Faults, SRAM and regions -/

/-- R393, R394, R395, R405: a raised source is recorded and captured, and its mask says what
follows: a port's source sends INT and TRAP to the service processor; a source forced through
FLT_FORCE is captured as forced. -/
def Obligations.FaultSources : Prop :=
  (∀ (s : State) (blk : Fin 240) (unit : Nat) (detail : BitVec 64) (m : Nat), s.phase = .running →
    s.quench = false → s.quiet → 40 ≤ blk.val → blk.val < 56 → m = s.reactOf blk 8 →
    bit m 2 = false → bit m 3 = false →
    ∃ t, exec (.faultSourceRaised blk 8 unit detail) s = .next t ∧
      flagged blk 8 (unit % 256) s.toBlock t.toBlock ∧
      ((s.fltOf blk).status = 0 → (t.fltOf blk).detail = detail ∧ (t.fltOf blk).reaction = m ∧
        (t.fltOf blk).forced = false) ∧
      t.out = s.out ++
        (if bit m 0 then [.spInt (srcCode blk 8 (unit % 256))] else []) ++
        (if bit m 1 then [.spTrap (srcCode blk 8 (unit % 256))] else []) ∧
      t = { s with flt := t.flt, out := t.out }) ∧
  (∀ (s : State) (blk : Fin 240) (src : Fin 64), s.live = true → s.quiet → s.muted blk src →
    ¬(122 ≤ blk.val ∧ blk.val < 129 ∧ src.val = 9) →
    ∃ t, exec (.fltForce blk (1#64 <<< src.val)) s = .next t ∧
      flagged blk src noUnit s.toBlock t.toBlock ∧
      ((s.fltOf blk).status = 0 → (t.fltOf blk).forced = true ∧ (t.fltOf blk).detail = 0) ∧
      t = { s with flt := t.flt }) ∧
  (∀ (s : State) (blk : Fin 240) (unit : Nat) (stage : BitVec 64), s.phase = .running → s.quiet →
    s.muted blk 4 →
    ∃ t, exec (.handshakeStall blk unit stage) s = .next t ∧
      flagged blk 4 (unit % 256) s.toBlock t.toBlock ∧
      ((s.fltOf blk).status = 0 → (t.fltOf blk).detail = stage) ∧ t = { s with flt := t.flt })

/-- R395, R396, R403, R404: a source whose mask has T and C traps the service processor and brings quench: the
cause is recorded, the fatal pin is low and every port sends OOS, and the DEVICE_FAULT of each PF, which here
has no event queue, is counted as lost (R267); a source whose mask has B resets its block, so that a
port in EXCHANGE fails and its masks and its settings return to their reset values; that `ENABLE` and what R94
marks "next training" stand is the model's reading (log 186). A change of mode that is under way at quench has
failed (the model's reading, log 172). -/
def Obligations.FaultReactions : Prop :=
  (∀ (s : State) (blk : Fin 240) (unit : Nat) (detail : BitVec 64), s.phase = .running →
    s.quench = false → s.quiet → blk.val = blkCrypto → bit (s.reactOf blk 8) 1 = true →
    bit (s.reactOf blk 8) 3 = true → (∀ hl : HostId, s.evtQueueOf (fidOf hl 0) = none) →
    ∃ t, exec (.faultSourceRaised blk 8 unit detail) s = .next t ∧ t.quench = true ∧
      t.quenchCause = srcCode blk 8 (unit % 256) ∧ t.fatalLow = true ∧
      (∀ p : PortId, t.port p = { s.port p with
        st := .oos, since := s.now, pauseOwed := none, pauseTarget := none,
        changeResult := if (s.port p).changeResult = 1 then 5 else (s.port p).changeResult }) ∧
      flagged blk 8 (unit % 256) s.toBlock t.toBlock ∧
      t.out = s.out ++
        (if bit (s.reactOf blk 8) 0 then [.spInt (srcCode blk 8 (unit % 256))] else []) ++
        [.spTrap (srcCode blk 8 (unit % 256))] ∧
      (∀ hl : HostId, s.fnLive (fidOf hl 0) = true → t.fn (fidOf hl 0) =
        { s.fn (fidOf hl 0) with lost := min ((s.fn (fidOf hl 0)).lost + 1) (2 ^ 32 - 1) }) ∧
      (∀ g, (∀ hl : HostId, g ≠ fidOf hl 0) → t.fn g = s.fn g) ∧
      t = { s with flt := t.flt, quench := true, quenchCause := t.quenchCause, fatalLow := true,
                   ports := t.ports, fns := t.fns, counters := t.counters, out := t.out }) ∧
  (∀ (s : State) (p : PortId) (blk : Fin 240) (unit : Nat) (stage : BitVec 64), s.phase = .running →
    s.quench = false → s.quiet → blk.val = blkPort p → s.reactOf blk 4 = 4 →
    (s.fltOf blk).resets.head? ≠ some s.now → (s.port p).st = .exchange →
    ∃ t, exec (.handshakeStall blk unit stage) s = .next t ∧
      t.port p = { s.port p with loaded := {}, st := .failed, since := s.now, oosWhileFailed := none,
                                     hasFailed := true, refuse4At := none } ∧
      (∀ q, q ≠ p.val → t.port q = s.port q) ∧
      (∀ k ∈ [6, 7, 8, 9, 11], t.obj (0x3100 + p.val) k = objDefault (0x3100 + p.val) k) ∧
      (∀ i k, (∀ l ∈ [6, 7, 8, 9, 11], objKey i k ≠ objKey (0x3100 + p.val) l) → t.obj i k = s.obj i k) ∧
      (∀ src, src < 64 → t.reactOf blk src = reactDefault blk src) ∧
      t.counter 1411 = min (s.counter 1411 + 1) counterMax ∧
      flagged blk 4 (unit % 256) s.toBlock t.toBlock ∧
      t = { s with flt := t.flt, react := t.react, reactSh := t.reactSh, counters := t.counters,
                   ports := t.ports, dict := t.dict })

/-- R398: a clean scrub read changes nothing but that a poisoned word so found is poisoned no longer (the
model's choice, log 25: it stands for the write that the rule asks for); the first corrected error of a row
is counted and remembered with its pass, and one in a later pass takes a spare row of the bank; whether the
row may fail the next self-check too is the part's own affair (log 25). Scrub and retirement go on only
while the device runs and is not in quench (the model's choice, log 172). R402: a region that
retires leaves the live ones; what had its home there has one in a live region, its clusters'
domains are asked for quiescence (R447), its tempo meter reads 0 (R434), and the retirement is counted. The last live region
stays. -/
def Obligations.SramAndRegions : Prop :=
  (∀ (s : State) (g : Fin 48) (k : Fin 33) (row word : Nat), s.live = true → s.quiet →
    s.domOn (elSram g) = true → (s.bank (bankKey g k)).retired = false →
    ¬(k.val = 32 ∧ row = 2047 ∧ word = 7) →
    ∃ t, exec (.scrub g k row word .clean) s = .next t ∧
      t.bank (bankKey g k) = { s.bank (bankKey g k) with
        poisoned := (s.bank (bankKey g k)).poisoned.filter fun w =>
          !(w.row == row && w.word == word) } ∧
      (∀ j, j ≠ bankKey g k → t.bank j = s.bank j) ∧ t = { s with banks := t.banks }) ∧
  (∀ (s : State) (g : Fin 48) (k : Fin 33) (row word : Nat), s.live = true → s.quiet →
    s.domOn (elSram g) = true → (s.bank (bankKey g k)).retired = false →
    s.muted (blkSram g) 2 → ¬(k.val = 32 ∧ row = 2047 ∧ word = 7) →
    Tbl.get 0 (s.bank (bankKey g k)).rowErrors row = 0 →
    ∃ t, exec (.scrub g k row word .oneBit) s = .next t ∧
      Tbl.get 0 (t.bank (bankKey g k)).rowErrors row = Tbl.get 0 s.scrubPasses g + 1 ∧
      (∀ j, j ≠ row → Tbl.get 0 (t.bank (bankKey g k)).rowErrors j =
        Tbl.get 0 (s.bank (bankKey g k)).rowErrors j) ∧
      (t.bank (bankKey g k)).spareRows = (s.bank (bankKey g k)).spareRows ∧
      (∀ j, j ≠ bankKey g k → t.bank j = s.bank j) ∧
      flagged (blkSram g) 2 k s.toBlock t.toBlock ∧
      t.counter (1024 + 8 * g.val) = min (s.counter (1024 + 8 * g.val) + 1) counterMax ∧
      (t.weakRows = s.weakRows ∨ t.weakRows = s.weakRows.insert (bankKey g k, row)) ∧
      t = { s with banks := t.banks, flt := t.flt, counters := t.counters, weakRows := t.weakRows,
                   fresh := s.fresh + 1 }) ∧
  (∀ (s : State) (g : Fin 48) (k : Fin 33) (row word : Nat), s.live = true → s.quiet →
    s.domOn (elSram g) = true → (s.bank (bankKey g k)).retired = false →
    s.muted (blkSram g) 2 → s.muted (blkSram g) 8 → ¬(k.val = 32 ∧ row = 2047 ∧ word = 7) →
    Tbl.get 0 (s.bank (bankKey g k)).rowErrors row ≠ 0 →
    Tbl.get 0 (s.bank (bankKey g k)).rowErrors row ≠ Tbl.get 0 s.scrubPasses g + 1 →
    0 < (s.bank (bankKey g k)).spareRows →
    ∃ t, exec (.scrub g k row word .oneBit) s = .next t ∧
      (t.bank (bankKey g k)).spareRows = (s.bank (bankKey g k)).spareRows - 1 ∧
      Tbl.get 0 (t.bank (bankKey g k)).rowErrors row = 0 ∧ t.rowsUsed = s.rowsUsed + 1 ∧
      (∀ j, j ≠ bankKey g k → t.bank j = s.bank j) ∧
      (t.fltOf (blkSram g)).status =
        (s.fltOf (blkSram g)).status ||| (1#64 <<< 2) ||| (1#64 <<< 8) ∧
      (∀ j, j ≠ blkSram g → t.fltOf j = s.fltOf j) ∧
      t.counter (1024 + 8 * g.val + 3) = min (s.counter (1024 + 8 * g.val + 3) + 1) counterMax ∧
      (t.weakRows = s.weakRows ∨ t.weakRows = s.weakRows.insert (bankKey g k, row)) ∧
      t = { s with banks := t.banks, flt := t.flt, counters := t.counters, weakRows := t.weakRows,
                   rowsUsed := t.rowsUsed, fresh := s.fresh + 1 }) ∧
  (∀ (s : State) (r : Fin 4), s.live = true → s.quiet → bit s.regions r = true →
    2 ≤ s.liveRegions.length → s.moulds = [] → s.unheard 8 →
    ∃ t, exec (.regionRetire r) s = .next t ∧ t.regions = s.regions - 2 ^ r.val ∧
      (∀ e ∈ t.ctxs, e.2.home ≠ r.val) ∧ (∀ e ∈ t.queues, e.2.home ≠ r.val) ∧
      (∀ e ∈ t.mctxs, e.2.home ≠ r.val) ∧
      (∀ c, c < 10 → (t.dom (elCluster r c)).st = (s.dom (elCluster r c)).st ∧
        ((s.dom (elCluster r c)).st = .on → (t.dom (elCluster r c)).quietAsked.isSome = true)) ∧
      (∀ k, (∀ c, c < 10 → k ≠ elCluster r c) → t.dom k = s.dom k) ∧
      (∀ p, (t.port p).st = (s.port p).st) ∧
      t.gov = { s.gov with tempo := s.gov.tempo.set r 0, counts := s.gov.counts.set r [] } ∧
      t.counter 1409 = min (s.counter 1409 + 1) counterMax ∧
      t = { s with regions := t.regions, delivery := t.delivery, fillStash := t.fillStash,
                   fresh := t.fresh, ctxs := t.ctxs, queues := t.queues, mctxs := t.mctxs,
                   pwr := t.pwr, gov := t.gov, counters := t.counters, outQ := t.outQ, injQ := t.injQ,
                   throttled := t.throttled, ports := t.ports }) ∧
  (∀ (s : State) (r : Fin 4), s.live = true → s.quiet → s.liveRegions.length ≤ 1 →
    exec (.regionRetire r) s = .next s)

/-! ## Counters -/

/-- R411: a window that is over moves each port's bytes into `BW_TX` and `BW_RX`, and the next one
starts empty; outside quench alone (the model's choice, log 172). R416, R417: a pass of a counter dump writes one record of 320 bytes in five writes of
64 bytes for each run of counters, with the next `RSEQ`, and moves to the next slot of the ring; passes
that fell due before it and were not taken take a number each and are counted. `TIME` is the multiple of
`PERIOD` at which the pass fell due (the model's reading, log 103), and that a pass not taken uses up a
number and adds one to `DUMP_DROPS` is its choice (log 149). -/
def Obligations.CounterRecords : Prop :=
  (∀ s : State, s.live = true → s.windowOver = true →
    ∃ t, exec .bwWindowEnd s = .next t ∧
      (∀ p : PortId, t.counter (portCtr p 14) = min (s.port p).winTx counterMax ∧
        t.counter (portCtr p 15) = min (s.port p).winRx counterMax ∧
        t.port p = { s.port p with winTx := 0, winRx := 0 }) ∧
      (∀ c, c ≠ 839 → (∀ p : PortId, c ≠ portCtr p 14 ∧ c ≠ portCtr p 15) →
        t.counter c = s.counter c) ∧
      t.bwEnd = (s.ftime / s.windowUnit + 1) * s.windowUnit ∧ t.bwStepped = false ∧
      t = { s with counters := t.counters, ports := t.ports, bwWindow := t.bwWindow,
                   bwNext := t.bwNext, bwStepped := t.bwStepped, bwEnd := t.bwEnd }) ∧
  (∀ (s : State) (hl : HostId) (f : FnId) (time first n : Nat) (body : Bytes), s.quiet →
    s.hostReady (fidOf hl f) → s.asleep (fidOf hl f) = false →
    s.dumpDue (fidOf hl f) = some time → s.stagingBad = 0 →
    n = (s.fn (fidOf hl f)).dump.missed time →
    s.runsOf (fidOf hl f) = [first] → (s.fn (fidOf hl f)).dump.vectorEn = false →
    body = toLe 4 (s.fn (fidOf hl f)).dump.rseq ++
      s.dumpBody (fidOf hl f) (((s.fn (fidOf hl f)).dump.pass + n) % 2 ^ 32) time first →
    ∃ t, exec (.dumpPass hl f) s = .next t ∧ body.length = 320 ∧
      t.out = s.out ++ (List.range 5).map (fun i =>
        Out.hostWrite hl (fidOf hl f) none false
          ((s.fn (fidOf hl f)).dump.base +
            320 * ((s.fn (fidOf hl f)).dump.slot % 2 ^ (s.fn (fidOf hl f)).dump.log) + 64 * i)
          (slice body (64 * i) 64)) ∧
      (t.fn (fidOf hl f)).dump = { (s.fn (fidOf hl f)).dump with
        last := time, pass := (((s.fn (fidOf hl f)).dump.pass + n) % 2 ^ 32 + 1) % 2 ^ 32,
        rseq := nextRseq (s.fn (fidOf hl f)).dump.rseq,
        slot := (s.fn (fidOf hl f)).dump.slot + 1 } ∧
      t.fn (fidOf hl f) = { s.fn (fidOf hl f) with dump := (t.fn (fidOf hl f)).dump } ∧
      (∀ g, g ≠ fidOf hl f → t.fn g = s.fn g) ∧
      t.counter 840 = min (s.counter 840 + 1) counterMax ∧
      t.counter 841 = min (s.counter 841 + n) counterMax ∧
      (∀ c, c ≠ 840 → c ≠ 841 → t.counter c = s.counter c) ∧
      t = { s with fns := t.fns, out := t.out, counters := t.counters }) ∧
  (∀ (s : State) (hl : HostId) (f : FnId), s.quiet → s.dumpDue (fidOf hl f) = none →
    exec (.dumpPass hl f) s = .next s)

/-! ## The dictionary -/

/-- R350, R358, R361: a READ of a scalar object answers its value; a WRITE of a setting of a host
link that its range allows changes that object, in flash as well where it is persistent, and no
other; an INFO answers the device's state, and one with data is refused; a request that fails orders 1 to 5
is answered with the status of the first failure and changes nothing. R364: a WRITE whose store in flash
fails is answered with FLASH, and the old value stays in force. That the store is whole by the end of the
step, and that `failNext`, which the part redraws at each store, says whether it holds, is the model's choice
(log 92). -/
def Obligations.DictionaryAccess : Prop :=
  (∀ (s : State) (r : IdpReq) (rest : List IdpReq) (row : ObjRow), s.idpHead r rest mtRead →
    s.idpObj r row → row.ty.scalar = true → r.index ≠ 0xA011 → r.index ≠ 0x7030 →
    r.index ≠ 0x7040 → r.sub ≠ 0 → r.offset = 0 → r.count = 0 → s.report r.index r.sub = none →
    ∃ t, exec .idpRead s = .next t ∧
      answered r stOk (toLe row.ty.bytes (s.obj r.index r.sub)) row.ty.bytes none
        s.toBlock t.toBlock ∧
      (r.auth = true → r.seq ≤ (t.seqOf r.principal).high) ∧
      t = { s with idpQ := rest, seqs := t.seqs, flash := t.flash, links := t.links,
                   fns := t.fns, out := t.out,
                   mnetWait := t.mnetWait }) ∧
  (∀ (s : State) (r : IdpReq) (rest : List IdpReq) (row : ObjRow), s.idpHead r rest mtWrite →
    s.idpObj r row → row.ty.scalar = true → row.ty ≠ .bool → 0x2020 ≤ r.index →
    r.index < 0x2034 → transportRange r.index r.sub (leNat r.data) = stOk →
    s.flash.failNext = false →
    ∃ t, exec .idpWrite s = .next t ∧ answered r stOk [] 0 none s.toBlock t.toBlock ∧
      t.obj r.index r.sub = leNat r.data ∧
      (∀ i j, objKey i j ≠ objKey r.index r.sub → t.obj i j = s.obj i j) ∧
      (row.pers = true →
        Tbl.get none t.flash.objects (objKey r.index r.sub) = some (leNat r.data)) ∧
      t = { s with dict := t.dict, flash := t.flash, idpQ := rest, seqs := t.seqs,
                   links := t.links, fns := t.fns, out := t.out,
                   mnetWait := t.mnetWait, fresh := t.fresh }) ∧
  (∀ (s : State) (r : IdpReq) (rest : List IdpReq), s.idpHead r rest mtInfo → r.auth = false →
    r.length = 0 → r.count = 0 →
    ∃ t, exec .idpInfo s = .next t ∧
      answered r stOk (toLe 1 1 ++ toLe 1 s.lifeCycle ++ toLe 2 r.src.limit ++ zeros 4 ++
        toLe 8 (s.seqOf r.principal).high) 0 none s.toBlock t.toBlock ∧
      t = { s with idpQ := rest, links := t.links, fns := t.fns, out := t.out,
                   mnetWait := t.mnetWait }) ∧
  (∀ (s : State) (r : IdpReq) (rest : List IdpReq), s.idpHead r rest mtInfo → r.auth = false →
    r.length ≠ 0 ∨ r.count ≠ 0 →
    ∃ t, exec .idpInfo s = .next t ∧ answered r dsLength [] 0 none s.toBlock t.toBlock ∧
      t = { s with idpQ := rest, links := t.links, fns := t.fns, out := t.out,
                   mnetWait := t.mnetWait }) ∧
  (∀ (s : State) (r : IdpReq) (rest : List IdpReq) (mac : Nat), s.serves = true → s.quiet →
    s.loadWait = [] → s.idpQ = r :: rest → r.mtype = mtWrite → r.src = .t1s mac →
    s.mnetUp = true → s.admission r ≠ stOk →
    exec .idpWrite s = .next { s with
      idpQ := rest, out := s.out ++ s.onWire r.src (r.reply false (s.admission r) [] 0 none) }) ∧
  (∀ (s : State) (r : IdpReq) (rest : List IdpReq) (row : ObjRow), s.idpHead r rest mtWrite →
    s.idpObj r row → row.ty.scalar = true → row.ty ≠ .bool → 0x2020 ≤ r.index →
    r.index < 0x2034 → transportRange r.index r.sub (leNat r.data) = stOk → row.pers = true →
    s.flash.failNext = true →
    ∃ t, exec .idpWrite s = .next t ∧ answered r dsFlash [] 0 none s.toBlock t.toBlock ∧
      t.dict = s.dict ∧ t.flash.objects = s.flash.objects ∧
      t = { s with flash := t.flash, idpQ := rest, seqs := t.seqs, links := t.links, fns := t.fns,
                   out := t.out,
                   mnetWait := t.mnetWait, fresh := t.fresh })

/-- R362, R363, R472: SEG_OPEN opens a transfer under a handle that no other has, SEG_DATA appends
to it in order, SEG_COMMIT of a whole `ATTEST_NONCE` takes effect and closes it, SEG_ABORT and 10 s
of silence end it without effect, where no message of it is recorded and waits. -/
def Obligations.Transfers : Prop :=
  (∀ (s : State) (r : IdpReq) (rest : List IdpReq) (row : ObjRow) (n : Nat),
    s.idpHead r rest mtSegOpen → s.idpObj r row → row.ty = .staged n →
    s.xferOn r.index r.sub = none → s.xfers.length < 4 → r.index < 0x6000 ∨ 0x6400 ≤ r.index →
    ∃ (t : State) (h : Nat), exec .segOpen s = .next t ∧
      answered r stOk [] n (some h) s.toBlock t.toBlock ∧ (∀ x ∈ s.xfers, x.handle ≠ h) ∧
      t.xfers = s.xfers ++ [⟨h, r.index, r.sub, r.principal, r.count, [], s.now⟩] ∧
      t = { s with xfers := t.xfers, idpQ := rest, seqs := t.seqs, flash := t.flash,
                   links := t.links, fns := t.fns, out := t.out,
                   mnetWait := t.mnetWait, fresh := t.fresh }) ∧
  (∀ (s : State) (r : IdpReq) (rest : List IdpReq) (row : ObjRow) (x : Xfer),
    s.idpHead r rest mtSegData → s.idpObj r row → s.xferOf r = some x →
    x.index < 0x6000 ∨ 0x6400 ≤ x.index → r.offset = x.bytes.length →
    x.bytes.length + r.length ≤ x.length →
    ∃ t, exec .segData s = .next t ∧
      answered r stOk [] (x.bytes ++ r.data).length none s.toBlock t.toBlock ∧
      t.xfers = s.xfers.map (fun z => if z.handle = x.handle then
        { x with bytes := x.bytes ++ r.data, lastAt := s.now } else z) ∧
      t = { s with xfers := t.xfers, idpQ := rest, seqs := t.seqs, flash := t.flash,
                   links := t.links, fns := t.fns, out := t.out,
                   mnetWait := t.mnetWait }) ∧
  (∀ (s : State) (r : IdpReq) (rest : List IdpReq) (row : ObjRow) (x : Xfer),
    s.idpHead r rest mtSegCommit → s.idpObj r row → s.xferOf r = some x → r.index = 0xA010 →
    x.bytes.length = x.length →
    ∃ t, exec .segCommit s = .next t ∧ answered r stOk [] x.length none s.toBlock t.toBlock ∧
      t.xfers = s.xfers.filter (fun z => !(z.handle == x.handle)) ∧
      (Tbl.get {} t.attest r.principal).nonce = some x.bytes ∧
      t = { s with xfers := t.xfers, attest := t.attest, idpQ := rest, seqs := t.seqs,
                   flash := t.flash, links := t.links, fns := t.fns, out := t.out,
                   mnetWait := t.mnetWait }) ∧
  (∀ (s : State) (r : IdpReq) (rest : List IdpReq) (row : ObjRow) (x : Xfer),
    s.idpHead r rest mtSegAbort → s.idpObj r row → s.xferOf r = some x →
    (∀ z ∈ s.xfers, z.handle = x.handle → 0x6400 ≤ z.index) →
    ∃ t, exec .segAbort s = .next t ∧ answered r stOk [] 0 none s.toBlock t.toBlock ∧
      t.xfers = s.xfers.filter (fun z => !(z.handle == x.handle)) ∧
      t = { s with xfers := t.xfers, idpQ := rest, seqs := t.seqs, flash := t.flash,
                   links := t.links, fns := t.fns, out := t.out,
                   mnetWait := t.mnetWait }) ∧
  (∀ (s : State) (h : Nat), s.serves = true → s.quiet →
    (∀ z ∈ s.xfers, z.handle = h → 0x6400 ≤ z.index) →
    ∃ t, exec (.xferIdleTimeout h) s = .next t ∧
      t.xfers = s.xfers.filter (fun z =>
        !(z.handle == h && decide (z.lastAt + 10000000000 ≤ s.now) && !s.segmentWaits z)) ∧
      t = { s with xfers := t.xfers })

/-- R351, R352, R359, R470, R473: a frame for the device is queued as a request, and counted and
dropped where 8 wait; MCTP control messages give and read the endpoint ID; ENTDAA gives a target
without an address its address; a DOE request is answered with a report over its nonce that `lmsSign` signs
with the next leaf of the lower tree. The bytes of the MCTP answers are the model's (PRESUMED, log 48), and so
is the MALFORMED that answers a DOE request of another length (DEDUCED, log 46). -/
def Obligations.ManagementNetwork : Prop :=
  (∀ (s : State) (fr : T1sFrame), s.serves = true → s.mnetUp = true →
    s.acceptsFrame fr = true → s.waitingOn IdpSource.isT1s < 8 →
    exec (.idpRequestReceived (.t1s fr)) s = .next { s with
      idpQ := s.idpQ ++ [⟨.t1s fr.src, fr.payload.drop 2, s.quench⟩] }) ∧
  (∀ (s : State) (fr : T1sFrame), s.serves = true → s.mnetUp = true →
    s.acceptsFrame fr = true → 8 ≤ s.waitingOn IdpSource.isT1s → s.quench = false →
    ∃ t, exec (.idpRequestReceived (.t1s fr)) s = .next t ∧
      t.counter 838 = min (s.counter 838 + 1) counterMax ∧
      (∀ c, c ≠ 838 → t.counter c = s.counter c) ∧ t = { s with counters := t.counters }) ∧
  (∀ (s : State) (e : Nat), s.serves = true → s.mnetUp = true → s.i3cAddr.isSome = true →
    s.mnetWait = [] →
    ∃ t, exec (.mctpControlMessage (.setEndpointId e)) s = .next t ∧ t.mctpEid = e % 256 ∧
      t = { s with mctpEid := t.mctpEid, out := t.out } ∧
      ∃ u, exec (.mctpControlMessage .getEndpointId) t = .next u ∧
        u.out = t.out ++ [.i3cInterrupt, .mctpReply (toLe 1 2 ++ zeros 1 ++ toLe 1 (e % 256) ++ zeros 2)] ∧
        u = { t with out := u.out }) ∧
  (∀ (s : State) (a : Fin 128), s.serves = true → s.mnetUp = true → s.i3cAddr = none →
    exec (.entdaa a) s = .next { s with
      i3cAddr := some a.val, out := s.out ++ [.i3cProvisional s.fuses.i3cPid] }) ∧
  (∀ (s : State) (hl : HostId) (req : Bytes), s.serves = true → s.quiet → s.quench = false →
    s.fnUp (fidOf hl 0) = true → req.length = 36 → fld req 0 4 = 1 → s.lcReset = none →
    s.lower.made = true → s.lower.used < 1024 →
    ∃ (t : State) (body : Bytes), exec (.doeAttestRequest hl req) s = .next t ∧
      body = s.reportBody (8 + hl.val) (slice req 4 32) ∧
      t.out = s.out ++ [.doeReply hl (toLe 4 stOk ++ (body ++ (toBe 4 1 ++ s.lower.cert ++
        lmsPub 6 otsW4 s.lower.ident s.lower.root ++
        lmsSign 6 otsW4 s.lower.ident s.lower.seed
          (otsW4.path s.lower.ident s.lower.seed 10 s.lower.used) s.lower.used (s.random 32).1
          body)))] ∧
      t.lower = { s.lower with used := s.lower.used + 1 } ∧
      t = { s with lower := t.lower, out := t.out, fresh := t.fresh }) ∧
  (∀ (s : State) (hl : HostId) (req : Bytes), s.serves = true → s.quiet →
    s.fnUp (fidOf hl 0) = true → req.length ≠ 36 →
    exec (.doeAttestRequest hl req) s = .next { s with
      out := s.out ++ [.doeReply hl (toLe 4 stMalformed)] })

/-! ## Package resets and start-up -/

/-- R443, R445, R449, R453: a rail trip and a low PORST_N hold the device with everything wiped but
fuses and flash; a pulse under 1 µs is ignored; once neither holds the device, start-up runs with
the straps latched again and counts itself in `BOOT_COUNT`. (Boot mode 3, a stored value that fails its
flash check, a row or a crucible lane that fails its self-check, a fuse check that fails and a resistor that
is missing raise sources of their own, so they are left to the general rules; which of these come about is
the part's and its board's affair, and the model draws it afresh, logs 25 and 166. Whether a pulse between
1 and 10 µs resets the device is open, R443.) R372, R404, R449, R450, R451, R479: a `CHIP_RESET` write starts the device again with cause
2, in quench as well, and a life-cycle change 100 ms after its reply with cause 4; both keep the
straps. A fault reaction starts nothing in quench. -/
def Obligations.PackageResets : Prop :=
  (∀ (s : State) (rail : Rail), ∃ t, exec (.powerOnReset rail) s = .next t ∧ t.phase = .held ∧
    t.railHold = true ∧ wipedClean t.toBlock ∧ t.ports = [] ∧ t.quench = false ∧
    t.fatalLow = false ∧ t.fuses = s.fuses ∧ t.flash = s.flash ∧ t.porstLow = s.porstLow ∧
    (s.porstLow = false → s.railHold = false → t.resetCause = 0) ∧
    (rail = .vddAon → t.fromPowerOn = true) ∧ t.out = s.out ∧ t.now = s.now ∧
    t.pending = s.pending) ∧
  (∀ (s : State) (n : Nat), s.porstLow = false → 10000 ≤ n →
    ∃ t, exec (.porstAssert n) s = .next t ∧ t.phase = .held ∧ t.porstLow = true ∧
      wipedClean t.toBlock ∧ t.ports = [] ∧ t.quench = false ∧ t.fatalLow = false ∧
      t.fuses = s.fuses ∧ t.flash = s.flash ∧ t.railHold = s.railHold ∧
      (s.railHold = false → t.resetCause = 1) ∧ t.fromPowerOn = s.fromPowerOn ∧ t.out = s.out ∧
      t.now = s.now ∧ t.pending = s.pending) ∧
  (∀ (s : State) (n : Nat), n < 1000 → exec (.porstAssert n) s = .next s) ∧
  (∀ (s : State) (n : Nat), s.porstLow = false → 1000 ≤ n → n < 10000 →
    ∃ t, exec (.porstAssert n) s = .next t ∧
      ((t.phase = .held ∧ t.porstLow = true) ∨ t = { s with fresh := s.fresh + 1 })) ∧
  (∀ (s : State) (st : Straps), s.porstLow = true → s.railHold = false → st.bootMode ≠ 3 → s.flash.bad = [] →
    s.weakRows = [] → s.luck.good →
    ∃ t, exec (.porstRelease st) s = .next t ∧ t.phase ≠ .held ∧ t.porstLow = false ∧
      t.bootMode = st.bootMode.val ∧ t.bifStrap = st.pcieBif.val ∧ t.testMode = st.testMode ∧
      t.flash.bootCount = s.flash.bootCount + 1 ∧ t.fromPowerOn = false ∧
      t.resetCause = (if s.fromPowerOn then 0 else s.resetCause) ∧ wipedClean t.toBlock ∧
      t.out = s.out ∧ t.pending = s.pending) ∧
  (∀ (s : State) (st : Straps), s.railHold = true → s.porstLow = false → st.bootMode ≠ 3 → s.flash.bad = [] →
    s.weakRows = [] → s.luck.good →
    ∃ t, exec (.railsInRange st) s = .next t ∧ t.phase ≠ .held ∧ t.railHold = false ∧
      t.bootMode = st.bootMode.val ∧ t.bifStrap = st.pcieBif.val ∧
      t.flash.bootCount = s.flash.bootCount + 1 ∧ t.fromPowerOn = false ∧
      wipedClean t.toBlock ∧ t.out = s.out ∧ t.pending = s.pending) ∧
  (∀ (s : State) (st : Straps), s.quiet → s.railHold = true → s.porstLow = true →
    exec (.railsInRange st) s = .next { s with railHold := false }) ∧
  (∀ s : State, s.rstAsked = true → s.mnetWait = [] → s.phase ≠ .held → s.phase ≠ .dead → s.bootMode ≠ 3 →
    s.flash.bad = [] → s.weakRows = [] → s.luck.good →
    ∃ t, exec (.chipReset .chipResetWrite) s = .next t ∧ t.resetCause = 2 ∧ t.phase ≠ .held ∧
      t.flash.bootCount = s.flash.bootCount + 1 ∧ t.bootMode = s.bootMode ∧
      t.bifStrap = s.bifStrap ∧ wipedClean t.toBlock ∧ t.out = s.out ∧ t.pending = s.pending) ∧
  (∀ (s : State) (due : Nat), s.lcReset = some due → due ≤ s.now → s.quench = false →
    s.phase ≠ .held → s.phase ≠ .dead → s.bootMode ≠ 3 →
    s.flash.bad = [] → s.weakRows = [] → s.luck.good →
    ∃ t, exec .lifeCycleReset s = .next t ∧ t.resetCause = 4 ∧ t.phase ≠ .held ∧
      t.flash.bootCount = s.flash.bootCount + 1 ∧ t.bootMode = s.bootMode ∧
      t.bifStrap = s.bifStrap ∧ wipedClean t.toBlock ∧ t.out = s.out ∧ t.pending = s.pending) ∧
  (∀ s : State, s.quench = true → s.quiet → exec (.chipReset .faultReaction) s = .next s)

/-! ## Host links and functions -/

/-- R204, R208, R212, R425: the steps by which a host link becomes ready after PERST_Hn_N is released, where
its clock domain runs, VF Enable and the readiness of a VF, and an ATS invalidation that nothing in flight
holds up. That VF `NumVFs` exists is the model's reading (log 173), and so is that a range invalidated without
a fresh translation has none (log 99). -/
def Obligations.HostLinkStates : Prop :=
  (∀ (s : State) (hl : HostId), s.phase = .running → s.present hl = true →
    (s.link hl).st = .inReset →
    ∃ t, exec (.perstRelease hl) s = .next t ∧
      t.link hl = { s.link hl with
        perstHigh := true, st := if s.domainRuns (16 + hl.val) then .training else .inReset } ∧
      (∀ n, n ≠ hl.val → t.link n = s.link n) ∧ t = { s with links := t.links }) ∧
  (∀ (s : State) (hl : HostId) (lanes rate : Nat), s.phase = .running →
    (s.link hl).st = .training → s.locked (8 + hl.val) = true →
    s.domainRuns (16 + hl.val) = true →
    linkSettles (linkWidth s.bifCode hl) lanes rate = true →
    ∃ t, exec (.dlActive hl lanes rate) s = .next t ∧
      t.link hl = { s.link hl with st := .dlActive, width := lanes, rate := rate } ∧
      (∀ n, n ≠ hl.val → t.link n = s.link n) ∧ t = { s with links := t.links }) ∧
  (∀ (s : State) (hl : HostId), (s.link hl).st = .dlActive →
    ∃ t, exec (.configReady hl) s = .next t ∧ t.link hl = { s.link hl with ready := true } ∧
      (∀ n, n ≠ hl.val → t.link n = s.link n) ∧ t = { s with links := t.links }) ∧
  (∀ (s : State) (hl : HostId) (k : FnId), s.phase = .running → s.quiet →
    s.fnUp (fidOf hl 0) = true → k.val ≠ 0 → (s.link hl).vfEnable = false →
    ∃ t, exec (.vfEnable hl k) s = .next t ∧
      t.link hl = { s.link hl with vfEnable := true, numVfs := k } ∧
      (∀ n, n ≠ hl.val → t.link n = s.link n) ∧ t = { s with links := t.links }) ∧
  (∀ (s : State) (hl : HostId) (k : FnId), s.vfExists hl k = true →
    s.fnLive (fidOf hl k) = true → (s.fn (fidOf hl k)).ready = false →
    ∃ t, exec (.vfReady hl k) s = .next t ∧
      t.fn (fidOf hl k) = { s.fn (fidOf hl k) with ready := true } ∧
      (∀ g, g ≠ fidOf hl k → t.fn g = s.fn g) ∧ t.out = s.out ++ [.readiness hl (fidOf hl k)] ∧
      t = { s with fns := t.fns, out := t.out }) ∧
  (∀ (s : State) (hl : HostId) (f : AtsScope) (addr len : Nat) (x : Xlat),
    s.phase = .running → x = ⟨fidOf hl f.fn, f.pasid.map (·.toNat), addr, len⟩ →
    s.fnUp (fidOf hl f.fn) = true → (s.link hl).invWait = [] → s.dma = [] →
    ∃ t, exec (.atsInvalidation hl f addr len false) s = .next t ∧
      t.out = s.out ++ [.invDone hl x] ∧ x ∈ (t.link hl).noXlat ∧ (t.link hl).invWait = [] ∧
      (∀ n, n ≠ hl.val → t.link n = s.link n) ∧
      t = { s with links := t.links, delivery := t.delivery, fillStash := t.fillStash,
                   out := t.out })

/-- R170, R209, R210, R211, R343: PERST_Hn_N and a hot reset take the host link down, a reset of the
PF leaves it up, and a reset of a VF touches that VF alone; each removes the queues of what it
resets, a PF's reset returns the cells of its host link to free, outside quench; a reset that completes
is signalled, and waits until no request issued before is under way; that of a PF then takes its pantries away; after a hot reset the link trains where
its clock domain runs (R425). That these resets act in quench too is the model's reading (log 101). That a function-level reset keeps the errors AER has recorded is the model's (log 153). -/
def Obligations.HostResets : Prop :=
  (∀ (s : State) (hl : HostId), s.phase = .running → s.quiet → s.present hl = true →
    (s.link hl).st ≠ .absent → (s.link hl).perstHigh = true → (s.link hl).numVfs ≤ 64 →
    s.moulds = [] → s.ctxs = [] →
    ∃ t, exec (.perstAssert hl) s = .next t ∧ (t.link hl).st = .inReset ∧
      (t.link hl).perstHigh = false ∧ (t.link hl).ready = false ∧ (t.link hl).width = 0 ∧
      (t.link hl).vfEnable = false ∧ (t.link hl).numVfs = 0 ∧ (t.link hl).ctxPantry = {} ∧
      (t.link hl).regPantry = {} ∧
      (∀ n, n ≠ hl.val → t.link n = { s.link n with freedCount := (t.link n).freedCount }) ∧
      (∀ g, fidLink g = hl.val → t.fn g = {}) ∧ (∀ g, fidLink g ≠ hl.val → t.fn g = s.fn g) ∧
      (∀ q, (t.queue q).live = true → (t.queue q).fid ≠ fidOf hl 0 ∧ t.queue q = s.queue q) ∧
      (∀ c, s.cellOf hl c = true → s.quench = false → t.lock c = { grantSeq := (s.lock c).grantSeq }) ∧
      (∀ c, s.cellOf hl c = false → t.lock c = s.lock c) ∧
      t = { s with links := t.links, fns := t.fns, ops := t.ops, dma := t.dma,
                   delivery := t.delivery, fillStash := t.fillStash, inflight := t.inflight,
                   mctxs := t.mctxs,
                   regs := t.regs, pool := t.pool, eps := t.eps, pds := t.pds,
                   queues := t.queues, counters := t.counters, ctrEvent := t.ctrEvent,
                   locks := t.locks, xfers := t.xfers, idpQ := t.idpQ, loadWait := t.loadWait }) ∧
  (∀ (s : State) (hl : HostId), s.phase = .running → s.quiet → s.present hl = true →
    (s.link hl).st = .training ∨ (s.link hl).st = .dlActive → (s.link hl).numVfs ≤ 64 →
    s.moulds = [] → s.ctxs = [] →
    ∃ t, exec (.hotReset hl) s = .next t ∧
      (t.link hl).st =
        (if (s.link hl).perstHigh && s.domainRuns (16 + hl.val) then .training else .inReset) ∧
      (t.link hl).perstHigh = (s.link hl).perstHigh ∧ (t.link hl).ready = false ∧
      (t.link hl).vfEnable = false ∧ (t.link hl).ctxPantry = {} ∧
      (∀ n, n ≠ hl.val → t.link n = { s.link n with freedCount := (t.link n).freedCount }) ∧
      (∀ g, fidLink g = hl.val → t.fn g = {}) ∧ (∀ g, fidLink g ≠ hl.val → t.fn g = s.fn g) ∧
      (∀ q, (t.queue q).live = true → (t.queue q).fid ≠ fidOf hl 0 ∧ t.queue q = s.queue q) ∧
      t = { s with links := t.links, fns := t.fns, ops := t.ops, dma := t.dma,
                   delivery := t.delivery, fillStash := t.fillStash, inflight := t.inflight,
                   mctxs := t.mctxs,
                   regs := t.regs, pool := t.pool, eps := t.eps, pds := t.pds,
                   queues := t.queues, counters := t.counters, ctrEvent := t.ctrEvent,
                   locks := t.locks, xfers := t.xfers, idpQ := t.idpQ, loadWait := t.loadWait }) ∧
  (∀ (s : State) (hl : HostId), s.phase = .running → s.quiet → s.fnUp (fidOf hl 0) = true →
    (s.link hl).numVfs ≤ 64 → s.moulds = [] → s.ctxs = [] →
    ∃ t, exec (.pfFlr hl) s = .next t ∧ t.fn (fidOf hl 0) = { flr := true, aer := (s.fn (fidOf hl 0)).aer } ∧
      (t.link hl).st = .dlActive ∧ (t.link hl).ready = true ∧ (t.link hl).vfEnable = false ∧
      (t.link hl).numVfs = 0 ∧ (t.link hl).ctxPantry = (s.link hl).ctxPantry ∧
      (t.link hl).regPantry = (s.link hl).regPantry ∧
      (∀ d ∈ t.dma, d ∈ s.dma) ∧ (∀ d ∈ s.dma, s.issued d = true → d ∈ t.dma) ∧
      (∀ n, n ≠ hl.val → t.link n = { s.link n with freedCount := (t.link n).freedCount }) ∧
      (∀ g, fidLink g ≠ hl.val → t.fn g = s.fn g) ∧
      (∀ q, (t.queue q).live = true → (t.queue q).fid ≠ fidOf hl 0 ∧ t.queue q = s.queue q) ∧
      (∀ c, s.cellOf hl c = true → s.quench = false → t.lock c = { grantSeq := (s.lock c).grantSeq }) ∧
      (∀ c, s.cellOf hl c = false → t.lock c = s.lock c) ∧
      t = { s with links := t.links, fns := t.fns, ops := t.ops, dma := t.dma,
                   delivery := t.delivery, fillStash := t.fillStash, inflight := t.inflight,
                   mctxs := t.mctxs,
                   regs := t.regs, pool := t.pool, eps := t.eps, pds := t.pds,
                   queues := t.queues, counters := t.counters, ctrEvent := t.ctrEvent,
                   locks := t.locks, xfers := t.xfers, idpQ := t.idpQ, loadWait := t.loadWait }) ∧
  (∀ (s : State) (hl : HostId) (k : FnId), s.phase = .running → s.quiet →
    s.vfExists hl k = true → s.fnUp (fidOf hl k) = true → s.moulds = [] → s.ctxs = [] →
    s.locks = [] →
    ∃ t, exec (.vfFlr hl k) s = .next t ∧ t.fn (fidOf hl k) = { flr := true, aer := (s.fn (fidOf hl k)).aer } ∧
      (∀ g, g ≠ fidOf hl k → t.fn g = s.fn g) ∧
      (∀ q, (t.queue q).live = true → (t.queue q).fid ≠ fidOf hl k ∧ t.queue q = s.queue q) ∧
      (∀ n, t.link n = { s.link n with freedCount := (t.link n).freedCount,
                                       noXlat := (t.link n).noXlat,
                                       invWait := (t.link n).invWait }) ∧
      (∀ d, d ∈ t.dma ↔ d ∈ s.dma ∧ (d.fid = fidOf hl k → s.issued d = true)) ∧
      t = { s with links := t.links, fns := t.fns, ops := t.ops, dma := t.dma, delivery := t.delivery,
                   fillStash := t.fillStash,
                   inflight := t.inflight, mctxs := t.mctxs, regs := t.regs, pool := t.pool, eps := t.eps, pds := t.pds,
                   queues := t.queues, counters := t.counters, ctrEvent := t.ctrEvent }) ∧
  (∀ (s : State) (hl : HostId) (d : DmaReq), s.quiet → d ∈ s.dma → d.hl = hl.val →
    exec (.flrComplete hl 0) s = .next s) ∧
  (∀ (s : State) (hl : HostId) (f : FnId) (d : DmaReq), s.quiet → d ∈ s.dma → d.hl = hl.val →
    d.fid = fidOf hl f → exec (.flrComplete hl f) s = .next s) ∧
  (∀ (s : State) (hl : HostId), s.quiet → (s.fn (fidOf hl 0)).flr = true → (∀ d ∈ s.dma, d.hl ≠ hl.val) →
    (∀ e ∈ s.fns, fidLink e.1 = hl.val → e.1 ≠ fidOf hl 0 → e.2.flr = false) →
    ∃ t, exec (.flrComplete hl 0) s = .next t ∧
      t.fn (fidOf hl 0) = { s.fn (fidOf hl 0) with flr := false } ∧
      (∀ g, g ≠ fidOf hl 0 → t.fn g = s.fn g) ∧ t.out = s.out ++ [.readiness hl (fidOf hl 0)] ∧
      (t.link hl).ctxPantry = {} ∧ (t.link hl).regPantry = {} ∧
      (∀ n, n ≠ hl.val → t.link n = s.link n) ∧
      (∀ c, ctxLink c = hl.val → t.ctx c = {}) ∧ (∀ c, ctxLink c ≠ hl.val → t.ctx c = s.ctx c) ∧
      (∀ k, k / 2 ^ 24 = hl.val → (t.reg k).live = false ∧ (t.reg k).gen = (s.reg k).gen) ∧
      (∀ k, k / 2 ^ 24 ≠ hl.val → t.reg k = s.reg k) ∧
      (∀ q, (s.queue q).live = true → t.queue q = s.queue q) ∧
      t = { s with links := t.links, fns := t.fns, ctxs := t.ctxs, regs := t.regs, dma := t.dma,
                   fillStash := t.fillStash, eps := t.eps, pds := t.pds, queues := t.queues,
                   out := t.out })

/-! ## The test access port -/

/-- R432, R454, R482: TRST_N gates and ungates the debug domain; IDCODE, SAMPLE/PRELOAD, EXTEST and
BYPASS work in every life-cycle state; outside BLANK and VENDOR every other instruction acts as
BYPASS; in BLANK and VENDOR the release of the debug hold boots, and an instruction of the debug
set, which the manual does not describe, is refused by name (the model's choice, log 115). The bits of the
IDCODE other than the part number, and what the boundary register shifts out, are free values (log 49). -/
def Obligations.DebugPort : Prop :=
  (∀ s : State, s.phase = .running → (s.clk 23).gate = false →
    ∃ t, exec (.trstN true) s = .next t ∧ t.trstHigh = true ∧ (t.clk 23).gated = false ∧
      (∀ d, d ≠ 23 → t.clk d = s.clk d) ∧ t = { s with trstHigh := true, clks := t.clks }) ∧
  (∀ s : State, s.phase = .running → (s.clk 23).gated = false → (s.clk 23).gateAsked = none →
    ∃ t, exec (.trstN false) s = .next t ∧ t.trstHigh = false ∧
      t.clk 23 = { s.clk 23 with gateAsked := some s.now } ∧
      (∀ d, d ≠ 23 → t.clk d = s.clk d) ∧ t = { s with trstHigh := false, clks := t.clks }) ∧
  (∀ s : State, s.tapOn = true → s.quiet →
    exec (.tapInstruction .idcode) s = .next { s with out := s.out ++ [.tdo idcode] } ∧
    exec (.tapInstruction .bypass) s = .next { s with out := s.out ++ [.tdo 0] } ∧
    ∃ v, v < 2 ∧
      exec (.tapInstruction .samplePreload) s = .next { s with
        out := s.out ++ [.tdo v], fresh := s.fresh + 1 } ∧
      exec (.tapInstruction .extest) s = .next { s with
        out := s.out ++ [.tdo v], fresh := s.fresh + 1 }) ∧
  (∀ (s : State) (code : Nat), s.tapOn = true → s.quiet → 2 ≤ s.lifeCycle →
    exec (.tapInstruction (.debug code)) s = .next { s with out := s.out ++ [.tdo 0] } ∧
    exec (.tapInstruction .releaseDebugHold) s = .next { s with out := s.out ++ [.tdo 0] }) ∧
  (∀ s : State, s.tapOn = true → s.quiet → s.lifeCycle < 2 → s.phase = .debugHold →
    s.flash.bad = [] → s.weakRows = [] → s.luck.good →
    ∃ t, exec (.tapInstruction .releaseDebugHold) s = .next t ∧
      (t.phase = .running ∨ t.phase = .recovery) ∧ t.pending = s.pending) ∧
  (∀ (s : State) (code : Nat), s.tapOn = true → s.lifeCycle < 2 →
    exec (.tapInstruction (.debug code)) s = .refused (.debugInstruction code))

/-! ## The block as a whole -/

/-- A step takes the command at the front of the queue and runs it with the rest of the queue; on an
empty queue 1 ns passes (log 1, the model's choice). -/
def Obligations.StepRunsFront : Prop :=
  (∀ (s : State) (c : Instr) (rest : List Instr), s.pending = c :: rest →
    step s = exec c { s with pending := rest }) ∧
  (∀ s : State, s.pending = [] →
    ∃ t, step s = .next t ∧ t.now = s.now + 1 ∧ t.pending = [] ∧ t.ports = s.ports ∧
      t.ctxs = s.ctxs ∧ t.queues = s.queues ∧ t.dict = s.dict)

/-- A command leaves the queue of waiting commands alone; every command that stands for an event
goes on in every state, but an instruction of the debug set that the test access port offers in
BLANK and VENDOR. -/
def Obligations.CommandsGoOn : Prop :=
  (∀ (c : Instr) (s t : State), exec c s = .next t → t.pending = s.pending) ∧
  (∀ (c : Instr) (s : State), c.wf = true →
    (∀ code, c ≠ .tapInstruction (.debug code)) ∨ s.tapOn = false ∨ 2 ≤ s.lifeCycle →
    ∃ t, exec c s = .next t)

/-- R83, R207, R222, R334, R375, R393, R445: what the manual gives registers at reset. The device is
held, every port is DISABLED, no function's registers hold anything, the unmaskable events alone are
enabled for a VF and types 0 to 11 for a PF, every lock cell is free, every fault register is clear
and every reaction mask at its default, and no host link is up. -/
def Obligations.ResetValues : Prop :=
  State.reset.phase = .held ∧ State.reset.pending = [] ∧
  (∀ p, (State.reset.port p).st = .disabled) ∧
  (∀ n, (State.reset.link n).st = .absent) ∧
  (∀ fid k, k < 4 → (State.reset.fn fid).arg k = 0) ∧
  (∀ fid, (State.reset.fn fid).badAccess = 0 ∧ (State.reset.fn fid).evtQueue = 0) ∧
  (∀ (hl : HostId), evtBits (fidOf hl 0) (State.reset.fn (fidOf hl 0)).evtEnable = 0x0FFF) ∧
  (∀ (hl : HostId) (f : FnId), f.val ≠ 0 →
    evtBits (fidOf hl f) (State.reset.fn (fidOf hl f)).evtEnable = fixedEvents) ∧
  (∀ c, State.reset.lock c = {}) ∧ (∀ k, (State.reset.fltOf k).status = 0) ∧
  (∀ k src, State.reset.reactOf k src = reactDefault k src) ∧
  (∀ c, State.reset.counter c = 0) ∧ State.reset.regions = 0xF ∧ State.reset.quench = false

/-! ## Formats -/

/-- R62, R64, R66: a flit that is encoded has 256 bytes and a good CRC, and decodes to itself, with every
field at every value the format admits; and the whole flits that fit between two alignment-marker groups
come out of the message bits as they went in, first bit first, with nothing but zero filler after them. -/
def Obligations.FlitRoundTrip : Prop :=
  (∀ f : Flit, f.ftype < 16 → f.vc < 16 → f.start < 16 → f.used < 16 → f.cvcA < 16 → f.cvcB < 16 →
    f.climA < 2 ^ 16 → f.climB < 2 ^ 16 → f.payload.length = 240 →
    f.encode.length = 256 ∧ crcGood f.encode = true ∧ Flit.decode f.encode = f) ∧
  (∀ (n : Nat) (flits : List Bytes), (∀ bs ∈ flits, bs.length = 256) → flits.length = n / 2048 →
    (groupStream n flits).length = n ∧ groupFlits (groupStream n flits) = flits ∧
    (groupStream n flits).drop (2048 * flits.length) = List.replicate (n % 2048) false)

/-- R33, R35, R36, R81: a packet decodes to itself through the bytes of its route field, and so do
those bytes through the packet; a capability record decodes to itself with every field at every
value the format admits. -/
def Obligations.PacketRoundTrip : Prop :=
  (∀ p : Pkt, p.wf = true → Pkt.decode p.encode = p) ∧
  (∀ bs : Bytes, 32 ≤ bs.length → (Pkt.decode bs).encode = bs ∧ (Pkt.decode bs).wf = true) ∧
  (∀ r : CapRec, r.verMax < 256 → r.verMin < 256 → r.pvcCount < 256 → r.nodeId < 2 ^ 18 →
    r.machineId < 2 ^ 16 → r.partMask < 2 ^ 16 → r.replayDepth < 2 ^ 16 → r.hbUnits < 256 →
    r.mode < 64 → r.refuse < 256 → CapRec.decode r.encode = r)

/-- R63: a flit that an uncorrectable codeword overlaps is taken as a flit with a bad CRC is,
whatever its bytes are. -/
def Obligations.FecAsBadCrc : Prop :=
  ∀ (s : State) (p : PortId) (raw bad : Bytes) (corr : List Nat), raw.length = 256 →
    bad.length = 256 → crcGood bad = false →
    exec (.flitReceived p raw ⟨false, corr⟩) s = exec (.flitReceived p bad ⟨true, corr⟩) s

/-! ## Quench -/

/-- R404: where the device is in quench, or start-up is not through, no data, control or mould work
is done: a command of these planes that meets such a block, with nothing left over to act, changes
nothing. The rule does not speak of the scrub, of the end of a bandwidth window or of the retirement of a
region there; that they do nothing either is the model's choice (log 172). -/
def Obligations.QuenchStopsWork : Prop :=
  ∀ (c : Instr) (s : State), c.works = true → s.live = false → s.quiet → exec c s = .next s

/-- R404, R451: quench is left only by a package reset: every step of any command but CHIP_RESET on
a `CHIP_RESET` write, and of a rail trip, a PORST_N assertion or the start-up after one, keeps it,
and so does the time that passes; a power cut in the middle of a write, which the model draws freely (log 166),
is a rail trip too. R337, R362: no step brings the waiters of a lock cell above 32, nor the open transfers
above 4. -/
def Obligations.QuenchIsLatched : Prop :=
  (∀ s t : State, s.quench = true → (∀ c rest, s.pending = c :: rest → c.resetsPackage = false) →
    s.luck.powerCut = false → step s = .next t → t.quench = true) ∧
  (∀ s t : State, (∀ c, (s.lock c).waiters.length ≤ 32) → step s = .next t →
    ∀ c, (t.lock c).waiters.length ≤ 32) ∧
  (∀ s t : State, s.xfers.length ≤ 4 → step s = .next t → t.xfers.length ≤ 4)

/-- R345: in quench a write of a lock cell is dropped, whatever it asks for and by whichever command
it comes, and a read is answered; the cells keep their state. -/
def Obligations.LockCellsInQuench : Prop :=
  (∀ (s : State) (hl : HostId) (f : FnId) (cell : Fin 256) (w : BitVec 64), s.quench = true →
    s.quiet →
    exec (.acquire hl f cell w) s = .next s ∧ exec (.tryLock hl f cell w) s = .next s ∧
    exec (.release hl f cell w) s = .next s ∧ exec (.cancel hl f cell w) s = .next s ∧
    exec (.claim hl f cell w) s = .next s ∧ exec (.forceRelease hl f cell w) s = .next s ∧
    exec (.setMode hl f cell w) s = .next s ∧
    ∀ size : Nat, exec (.registerWrite (.fn hl f) (0x1000 + 8 * cell.val) size w) s = .next s) ∧
  (∀ (s : State) (hl : HostId) (f : FnId) (cell : Fin 256), s.quench = true → s.quiet →
    s.phase = .running → s.fnUp (fidOf hl f) = true → s.cellOf hl cell = true →
    exec (.reservedRead (.fn hl f) (0x1000 + 8 * cell.val) 8) s = .next { s with
      out := s.out ++ [.regData (.fn hl f) (0x1000 + 8 * cell.val)
        (s.lockRead (fidOf hl f) cell)] }) ∧
  (∀ (s : State) (code : Nat), (s.toBlock.enterQuench code).locks = s.locks)

/-- R340: SET_MODE by the PF changes the mode of a free cell without waiters; from a VF, on a held
cell or on one with waiters it is misuse: dropped, counted and raised. -/
def Obligations.SetModeRule : Prop :=
  (∀ (s : State) (hl : HostId) (cell : Fin 256) (w : BitVec 64),
    s.lockReach (fidOf hl 0) cell w.toNat 7 → (s.lock cell).held = false →
    (s.lock cell).waiters = [] → bits w.toNat 49 48 ≠ 3 →
    ∃ t, exec (.setMode hl 0 cell w) s = .next t ∧
      t.lock cell = { s.lock cell with mode := bits w.toNat 49 48 } ∧ lockOnly cell s t) ∧
  (∀ (s : State) (hl : HostId) (f : FnId) (cell : Fin 256) (w : BitVec 64),
    s.lockReach (fidOf hl f) cell w.toNat 7 → s.muted (blkHl hl) 8 →
    f.val ≠ 0 ∨ (s.lock cell).held = true ∨ (s.lock cell).waiters ≠ [] →
    ∃ t, exec (.setMode hl f cell w) s = .next t ∧ t.locks = s.locks ∧
      t.counter 802 = min (s.counter 802 + 1) counterMax ∧
      flagged (blkHl hl) 8 noUnit s.toBlock t.toBlock ∧
      t = { s with counters := t.counters, flt := t.flt })

/-! ## Replay of requests -/

/-- R357: accepting a sequence number raises the stored floor to a multiple of 4,096 above it first;
a restart sets `H` to the floor with the map full; and then no request whose number was ever
accepted, nor any at or below the floor, is accepted again. No step brings `H` of a principal above its floor,
nor lowers a floor but with a change of state, which changes keys (R355). -/
def Obligations.ReplayAcrossReset : Prop :=
  (∀ (b : Block) (p seq : Nat), b.flash.floors.length = 3 → p < 3 →
    (nth 0 b.flash.floors p < seq →
      nth 0 (b.acceptSeq p seq).flash.floors p = (seq / 4096 + 1) * 4096) ∧
    (seq ≤ nth 0 b.flash.floors p → (b.acceptSeq p seq).flash.floors = b.flash.floors) ∧
    seq ≤ nth 0 (b.acceptSeq p seq).flash.floors p) ∧
  (∀ (b : Block) (p : Nat), p < 3 →
    (b.restartSeqs.seqOf p).high = nth 0 b.flash.floors p ∧
    (∀ v, v < nth 0 b.flash.floors p → nth 0 b.flash.floors p ≤ v + 64 →
      v ∈ (b.restartSeqs.seqOf p).seen)) ∧
  (∀ (b : Block) (p seq v : Nat) (mac : Bytes), b.flash.floors.length = 3 → p < 3 → v ≤ seq →
    ((b.acceptSeq p seq).restartSeqs.seqOf p).judge v mac = .replay) ∧
  (∀ (s t : State), s.bootMode ≠ 3 → s.rstAsked = true → s.mnetWait = [] → s.phase ≠ .held →
    s.phase ≠ .dead →
    exec (.chipReset .chipResetWrite) s = .next t → t.seqs = s.restartSeqs.seqs) ∧
  (∀ (s t : State), s.floorsHold → step s = .next t →
    t.floorsHold ∧
    ∀ p, p < 3 → p ∉ rekeyed s.lifeCycle t.lifeCycle →
      nth 0 s.flash.floors p ≤ nth 0 t.flash.floors p) ∧
  (∀ (s t : State) (st : Straps), st.bootMode ≠ 3 → s.porstLow = true → s.railHold = false →
    exec (.porstRelease st) s = .next t → t.seqs = s.restartSeqs.seqs)
end

