-- ==== Sys2Proof/Laws/Tbl.lean ====
section
/-! SUPPORT. Laws of sparse tables: a read after a write, and that every operation keeps the canonical
form. -/

namespace Sys2Proof.Machine

theorem Tbl.get_put_self (d : α) (t : Tbl α) (k : Nat) (v : α) : Tbl.get d (Tbl.put t k v) k = v := by
  induction t with
  | nil => simp [Tbl.put, Tbl.get]
  | cons e t ih =>
    obtain ⟨j, w⟩ := e
    simp only [Tbl.put]
    split
    · next h => simp [Tbl.get, Nat.ne_of_lt h, ih]
    · split <;> simp [Tbl.get]

theorem Tbl.get_put_ne (d : α) (t : Tbl α) {k k' : Nat} (v : α) (h : k' ≠ k) :
    Tbl.get d (Tbl.put t k v) k' = Tbl.get d t k' := by
  induction t with
  | nil => simp [Tbl.put, Tbl.get, h.symm]
  | cons e t ih =>
    obtain ⟨j, w⟩ := e
    simp only [Tbl.put]
    split
    · simp [Tbl.get, ih]
    · split
      · next hj => subst hj; simp [Tbl.get, h.symm]
      · simp [Tbl.get, h.symm]

theorem Tbl.get_erase_self (d : α) (t : Tbl α) (k : Nat) :
    Tbl.get d (List.filter (fun e => !(e.1 == k)) t) k = d := by
  induction t with
  | nil => rfl
  | cons e t ih =>
    obtain ⟨j, w⟩ := e
    by_cases h : j = k <;> simp [h, ih, Tbl.get]

theorem Tbl.get_erase_ne (d : α) (t : Tbl α) {k k' : Nat} (h : k' ≠ k) :
    Tbl.get d (List.filter (fun e => !(e.1 == k)) t) k' = Tbl.get d t k' := by
  induction t with
  | nil => rfl
  | cons e t ih =>
    obtain ⟨j, w⟩ := e
    by_cases hj : j = k
    · subst hj; simp [ih, Tbl.get, h.symm]
    · simp [hj, ih, Tbl.get]

/-- A read after a write gives what was written. -/
@[simp] theorem Tbl.get_set_self [DecidableEq α] (d : α) (t : Tbl α) (k : Nat) (v : α) :
    Tbl.get d (Tbl.set d t k v) k = v := by
  unfold Tbl.set
  split
  · next h => rw [h]; exact Tbl.get_erase_self d t k
  · exact Tbl.get_put_self d t k v

/-- A write leaves every other key alone. -/
@[simp] theorem Tbl.get_set_ne [DecidableEq α] (d d' : α) (t : Tbl α) {k k' : Nat} (v : α)
    (h : k' ≠ k) : Tbl.get d' (Tbl.set d t k v) k' = Tbl.get d' t k' := by
  unfold Tbl.set
  split
  · exact Tbl.get_erase_ne d' t h
  · exact Tbl.get_put_ne d' t v h

theorem Tbl.get_set [DecidableEq α] (d : α) (t : Tbl α) (k k' : Nat) (v : α) :
    Tbl.get d (Tbl.set d t k v) k' = if k' = k then v else Tbl.get d t k' := by
  split
  · next h => subst h; exact Tbl.get_set_self d t k' v
  · next h => exact Tbl.get_set_ne d d t v h

/-! ## The canonical form -/

theorem Tbl.above_mono {t : Tbl α} {i j : Nat} (h : i ≤ j) (ha : Tbl.above j t = true) :
    Tbl.above i t = true := by
  cases t with
  | nil => rfl
  | cons e t =>
    obtain ⟨k, w⟩ := e
    simp only [Tbl.above, Bool.and_eq_true, decide_eq_true_eq] at *
    exact ⟨by omega, ha.2⟩

theorem Tbl.above_put {t : Tbl α} {lo k : Nat} {v : α} (hl : lo < k) (ha : Tbl.above lo t = true) :
    Tbl.above lo (Tbl.put t k v) = true := by
  induction t generalizing lo with
  | nil => simp [Tbl.put, Tbl.above, hl]
  | cons e t ih =>
    obtain ⟨j, w⟩ := e
    simp only [Tbl.above, Bool.and_eq_true, decide_eq_true_eq] at ha
    simp only [Tbl.put]
    split
    · next h => simp [Tbl.above, ha.1, ih h ha.2]
    · split
      · next h => subst h; simp [Tbl.above, hl, ha.2]
      · simp only [Tbl.above, Bool.and_eq_true, decide_eq_true_eq]
        exact ⟨hl, by omega, ha.2⟩

theorem Tbl.above_filter {t : Tbl α} {lo : Nat} (p : Nat × α → Bool) (ha : Tbl.above lo t = true) :
    Tbl.above lo (List.filter p t) = true := by
  induction t generalizing lo with
  | nil => rfl
  | cons e t ih =>
    obtain ⟨j, w⟩ := e
    simp only [Tbl.above, Bool.and_eq_true, decide_eq_true_eq] at ha
    rw [List.filter_cons]
    split
    · simp [Tbl.above, ha.1, ih ha.2]
    · exact Tbl.above_mono (Nat.le_of_lt ha.1) (ih ha.2)

theorem Tbl.wf_iff [DecidableEq α] (d : Nat → α) (t : Tbl α) :
    Tbl.wf d t = true ↔ Tbl.rising t = true ∧ ∀ e ∈ t, e.2 ≠ d e.1 := by
  simp [Tbl.wf]

theorem Tbl.mem_put {t : Tbl α} {k : Nat} {v : α} {e : Nat × α} (h : e ∈ Tbl.put t k v) :
    e = (k, v) ∨ e ∈ t := by
  induction t with
  | nil => simpa [Tbl.put] using h
  | cons x t ih =>
    obtain ⟨j, w⟩ := x
    simp only [Tbl.put] at h
    split at h
    · simp only [List.mem_cons] at h ⊢
      rcases h with h | h
      · exact .inr (.inl h)
      · rcases ih h with h | h
        · exact .inl h
        · exact .inr (.inr h)
    · split at h
      · simp only [List.mem_cons] at h ⊢
        exact h.imp id .inr
      · exact (List.mem_cons.mp h)

theorem Tbl.rising_filter {t : Tbl α} (p : Nat × α → Bool) (h : Tbl.rising t = true) :
    Tbl.rising (List.filter p t) = true := by
  induction t with
  | nil => rfl
  | cons x t ih =>
    obtain ⟨j, w⟩ := x
    rw [List.filter_cons]
    split
    · exact Tbl.above_filter p h
    · apply ih
      cases t with
      | nil => rfl
      | cons y t =>
        obtain ⟨i, u⟩ := y
        simp only [Tbl.rising, Tbl.above, Bool.and_eq_true] at h ⊢
        exact h.2

theorem Tbl.rising_put {t : Tbl α} (k : Nat) (v : α) (h : Tbl.rising t = true) :
    Tbl.rising (Tbl.put t k v) = true := by
  cases t with
  | nil => rfl
  | cons x t =>
    obtain ⟨j, w⟩ := x
    simp only [Tbl.put]
    split
    · next hj => exact Tbl.above_put hj h
    · split
      · next hj => subst hj; exact h
      · simp only [Tbl.rising, Tbl.above, Bool.and_eq_true, decide_eq_true_eq]
        exact ⟨by omega, h⟩

/-- Taking entries out keeps the canonical form. -/
theorem Tbl.wf_filter [DecidableEq α] {d : Nat → α} {t : Tbl α} (p : Nat × α → Bool)
    (h : Tbl.wf d t = true) : Tbl.wf d (List.filter p t) = true := by
  rw [Tbl.wf_iff] at h ⊢
  exact ⟨Tbl.rising_filter p h.1, fun e he => h.2 e (List.mem_filter.mp he).1⟩

/-- A write keeps the canonical form. -/
theorem Tbl.wf_set [DecidableEq α] {d : Nat → α} {t : Tbl α} (k : Nat) (v : α)
    (h : Tbl.wf d t = true) : Tbl.wf d (Tbl.set (d k) t k v) = true := by
  unfold Tbl.set
  split
  · exact Tbl.wf_filter _ h
  · next hv =>
    rw [Tbl.wf_iff] at h ⊢
    refine ⟨Tbl.rising_put k v h.1, fun e he => ?_⟩
    rcases Tbl.mem_put he with rfl | he
    · exact hv
    · exact h.2 e he

/-- Dropping keys keeps the canonical form. -/
theorem Tbl.wf_drop [DecidableEq α] {d : Nat → α} {t : Tbl α} (p : Nat → Bool)
    (h : Tbl.wf d t = true) : Tbl.wf d (Tbl.drop p t) = true := Tbl.wf_filter _ h

/-- A read after every value was changed, where the change keeps the default. -/
theorem Tbl.get_map [DecidableEq α] (d : α) (g : Nat → α → α) (t : Tbl α) (k : Nat) (h : g k d = d) :
    Tbl.get d (Tbl.map d g t) k = g k (Tbl.get d t k) := by
  induction t with
  | nil => simp [Tbl.map, Tbl.get, h]
  | cons e t ih =>
    obtain ⟨j, v⟩ := e
    by_cases hk : j = k
    · subst hk
      by_cases hv : g j v = d
      · simp [Tbl.map, Tbl.get, hv, Tbl.get_erase_self]
      · simp [Tbl.map, Tbl.get, hv]
    · by_cases hv : g j v = d
      · simp [Tbl.map, Tbl.get, hv, hk, Tbl.get_erase_ne d _ (Ne.symm hk), ih]
      · simp [Tbl.map, Tbl.get, hv, hk, ih]

theorem Tbl.wf_nil [DecidableEq α] (d : Nat → α) : Tbl.wf d [] = true := rfl

end Sys2Proof.Machine
end

