-- ==== Sys2Proof/Laws/State.lean ====
section
/-! SUPPORT. What each update of the block changes and what it leaves: one lemma per update and part of
the state, and per field of the part it belongs to. -/

namespace Sys2Proof.Machine

/-! ## setPort -/

@[simp] theorem Block.setPort_toTransport (b : Block) (k : Nat) (v : Port) :
    (b.setPort k v).toTransport = b.toTransport := rfl
@[simp] theorem Block.setPort_toHostSide (b : Block) (k : Nat) (v : Port) :
    (b.setPort k v).toHostSide = b.toHostSide := rfl
@[simp] theorem Block.setPort_toMouldSide (b : Block) (k : Nat) (v : Port) :
    (b.setPort k v).toMouldSide = b.toMouldSide := rfl
@[simp] theorem Block.setPort_toMgmt (b : Block) (k : Nat) (v : Port) :
    (b.setPort k v).toMgmt = b.toMgmt := rfl
@[simp] theorem Block.setPort_toService (b : Block) (k : Nat) (v : Port) :
    (b.setPort k v).toService = b.toService := rfl
@[simp] theorem Block.setPort_toPlatform (b : Block) (k : Nat) (v : Port) :
    (b.setPort k v).toPlatform = b.toPlatform := rfl
@[simp] theorem Block.setPort_rxQ (b : Block) (k : Nat) (v : Port) :
    (b.setPort k v).rxQ = b.rxQ := rfl
@[simp] theorem Block.setPort_outQ (b : Block) (k : Nat) (v : Port) :
    (b.setPort k v).outQ = b.outQ := rfl
@[simp] theorem Block.setPort_nextPlace (b : Block) (k : Nat) (v : Port) :
    (b.setPort k v).nextPlace = b.nextPlace := rfl
@[simp] theorem Block.setPort_injQ (b : Block) (k : Nat) (v : Port) :
    (b.setPort k v).injQ = b.injQ := rfl
@[simp] theorem Block.setPort_madeQ (b : Block) (k : Nat) (v : Port) :
    (b.setPort k v).madeQ = b.madeQ := rfl
@[simp] theorem Block.setPort_copying (b : Block) (k : Nat) (v : Port) :
    (b.setPort k v).copying = b.copying := rfl
@[simp] theorem Block.setPort_rrIn (b : Block) (k : Nat) (v : Port) :
    (b.setPort k v).rrIn = b.rrIn := rfl
@[simp] theorem Block.setPort_throttled (b : Block) (k : Nat) (v : Port) :
    (b.setPort k v).throttled = b.throttled := rfl
@[simp] theorem Block.setPort_delivery (b : Block) (k : Nat) (v : Port) :
    (b.setPort k v).delivery = b.delivery := rfl
@[simp] theorem Block.setPort_paths (b : Block) (k : Nat) (v : Port) :
    (b.setPort k v).paths = b.paths := rfl
@[simp] theorem Block.setPort_segments (b : Block) (k : Nat) (v : Port) :
    (b.setPort k v).segments = b.segments := rfl
@[simp] theorem Block.setPort_sprue (b : Block) (k : Nat) (v : Port) :
    (b.setPort k v).sprue = b.sprue := rfl
@[simp] theorem Block.setPort_fences (b : Block) (k : Nat) (v : Port) :
    (b.setPort k v).fences = b.fences := rfl
@[simp] theorem Block.setPort_reports (b : Block) (k : Nat) (v : Port) :
    (b.setPort k v).reports = b.reports := rfl
@[simp] theorem Block.setPort_closedReports (b : Block) (k : Nat) (v : Port) :
    (b.setPort k v).closedReports = b.closedReports := rfl
@[simp] theorem Block.setPort_gatherHeld (b : Block) (k : Nat) (v : Port) :
    (b.setPort k v).gatherHeld = b.gatherHeld := rfl
@[simp] theorem Block.setPort_lostPriv (b : Block) (k : Nat) (v : Port) :
    (b.setPort k v).lostPriv = b.lostPriv := rfl
@[simp] theorem Block.setPort_treeSeq (b : Block) (k : Nat) (v : Port) :
    (b.setPort k v).treeSeq = b.treeSeq := rfl
@[simp] theorem Block.setPort_mcastOut (b : Block) (k : Nat) (v : Port) :
    (b.setPort k v).mcastOut = b.mcastOut := rfl
@[simp] theorem Block.setPort_out (b : Block) (k : Nat) (v : Port) :
    (b.setPort k v).out = b.out := rfl
@[simp] theorem Block.setPort_now (b : Block) (k : Nat) (v : Port) :
    (b.setPort k v).now = b.now := rfl
@[simp] theorem Block.setPort_fresh (b : Block) (k : Nat) (v : Port) :
    (b.setPort k v).fresh = b.fresh := rfl
@[simp] theorem Block.port_setPort_self (b : Block) (k : Nat) (v : Port) :
    (b.setPort k v).port k = v := Tbl.get_set_self _ _ _ _
@[simp] theorem Block.port_setPort_ne (b : Block) (k : Nat) (v : Port) {j : Nat} (h : j ≠ k) :
    (b.setPort k v).port j = b.port j := Tbl.get_set_ne _ _ _ _ h
@[simp] theorem Block.ctx_setPort (b : Block) (k : Nat) (v : Port) (j : Nat) :
    (b.setPort k v).ctx j = b.ctx j := rfl
@[simp] theorem Block.pd_setPort (b : Block) (k : Nat) (v : Port) (j : Nat) :
    (b.setPort k v).pd j = b.pd j := rfl
@[simp] theorem Block.ep_setPort (b : Block) (k : Nat) (v : Port) (j : Nat) :
    (b.setPort k v).ep j = b.ep j := rfl
@[simp] theorem Block.reg_setPort (b : Block) (k : Nat) (v : Port) (j : Nat) :
    (b.setPort k v).reg j = b.reg j := rfl
@[simp] theorem Block.mctx_setPort (b : Block) (k : Nat) (v : Port) (j : Nat) :
    (b.setPort k v).mctx j = b.mctx j := rfl
@[simp] theorem Block.queue_setPort (b : Block) (k : Nat) (v : Port) (j : Nat) :
    (b.setPort k v).queue j = b.queue j := rfl
@[simp] theorem Block.link_setPort (b : Block) (k : Nat) (v : Port) (j : Nat) :
    (b.setPort k v).link j = b.link j := rfl
@[simp] theorem Block.fn_setPort (b : Block) (k : Nat) (v : Port) (j : Nat) :
    (b.setPort k v).fn j = b.fn j := rfl
@[simp] theorem Block.lock_setPort (b : Block) (k : Nat) (v : Port) (j : Nat) :
    (b.setPort k v).lock j = b.lock j := rfl
@[simp] theorem Block.mould_setPort (b : Block) (k : Nat) (v : Port) (j : Nat) :
    (b.setPort k v).mould j = b.mould j := rfl
@[simp] theorem Block.fltOf_setPort (b : Block) (k : Nat) (v : Port) (j : Nat) :
    (b.setPort k v).fltOf j = b.fltOf j := rfl
@[simp] theorem Block.bank_setPort (b : Block) (k : Nat) (v : Port) (j : Nat) :
    (b.setPort k v).bank j = b.bank j := rfl
@[simp] theorem Block.clk_setPort (b : Block) (k : Nat) (v : Port) (j : Nat) :
    (b.setPort k v).clk j = b.clk j := rfl
@[simp] theorem Block.dom_setPort (b : Block) (k : Nat) (v : Port) (j : Nat) :
    (b.setPort k v).dom j = b.dom j := rfl

/-! ## setCtx -/

@[simp] theorem Block.setCtx_toNet (b : Block) (k : Nat) (v : Ctx) :
    (b.setCtx k v).toNet = b.toNet := rfl
@[simp] theorem Block.setCtx_toHostSide (b : Block) (k : Nat) (v : Ctx) :
    (b.setCtx k v).toHostSide = b.toHostSide := rfl
@[simp] theorem Block.setCtx_toMouldSide (b : Block) (k : Nat) (v : Ctx) :
    (b.setCtx k v).toMouldSide = b.toMouldSide := rfl
@[simp] theorem Block.setCtx_toMgmt (b : Block) (k : Nat) (v : Ctx) :
    (b.setCtx k v).toMgmt = b.toMgmt := rfl
@[simp] theorem Block.setCtx_toService (b : Block) (k : Nat) (v : Ctx) :
    (b.setCtx k v).toService = b.toService := rfl
@[simp] theorem Block.setCtx_toPlatform (b : Block) (k : Nat) (v : Ctx) :
    (b.setCtx k v).toPlatform = b.toPlatform := rfl
@[simp] theorem Block.setCtx_ops (b : Block) (k : Nat) (v : Ctx) :
    (b.setCtx k v).ops = b.ops := rfl
@[simp] theorem Block.setCtx_nextOp (b : Block) (k : Nat) (v : Ctx) :
    (b.setCtx k v).nextOp = b.nextOp := rfl
@[simp] theorem Block.setCtx_dma (b : Block) (k : Nat) (v : Ctx) :
    (b.setCtx k v).dma = b.dma := rfl
@[simp] theorem Block.setCtx_nextTag (b : Block) (k : Nat) (v : Ctx) :
    (b.setCtx k v).nextTag = b.nextTag := rfl
@[simp] theorem Block.setCtx_atomics (b : Block) (k : Nat) (v : Ctx) :
    (b.setCtx k v).atomics = b.atomics := rfl
@[simp] theorem Block.setCtx_fillStash (b : Block) (k : Nat) (v : Ctx) :
    (b.setCtx k v).fillStash = b.fillStash := rfl
@[simp] theorem Block.setCtx_readWait (b : Block) (k : Nat) (v : Ctx) :
    (b.setCtx k v).readWait = b.readWait := rfl
@[simp] theorem Block.setCtx_pds (b : Block) (k : Nat) (v : Ctx) :
    (b.setCtx k v).pds = b.pds := rfl
@[simp] theorem Block.setCtx_eps (b : Block) (k : Nat) (v : Ctx) :
    (b.setCtx k v).eps = b.eps := rfl
@[simp] theorem Block.setCtx_regs (b : Block) (k : Nat) (v : Ctx) :
    (b.setCtx k v).regs = b.regs := rfl
@[simp] theorem Block.setCtx_pool (b : Block) (k : Nat) (v : Ctx) :
    (b.setCtx k v).pool = b.pool := rfl
@[simp] theorem Block.setCtx_mctxs (b : Block) (k : Nat) (v : Ctx) :
    (b.setCtx k v).mctxs = b.mctxs := rfl
@[simp] theorem Block.setCtx_inflight (b : Block) (k : Nat) (v : Ctx) :
    (b.setCtx k v).inflight = b.inflight := rfl
@[simp] theorem Block.setCtx_placeWait (b : Block) (k : Nat) (v : Ctx) :
    (b.setCtx k v).placeWait = b.placeWait := rfl
@[simp] theorem Block.setCtx_out (b : Block) (k : Nat) (v : Ctx) :
    (b.setCtx k v).out = b.out := rfl
@[simp] theorem Block.setCtx_now (b : Block) (k : Nat) (v : Ctx) :
    (b.setCtx k v).now = b.now := rfl
@[simp] theorem Block.setCtx_fresh (b : Block) (k : Nat) (v : Ctx) :
    (b.setCtx k v).fresh = b.fresh := rfl
@[simp] theorem Block.ctx_setCtx_self (b : Block) (k : Nat) (v : Ctx) :
    (b.setCtx k v).ctx k = v := Tbl.get_set_self _ _ _ _
@[simp] theorem Block.ctx_setCtx_ne (b : Block) (k : Nat) (v : Ctx) {j : Nat} (h : j ≠ k) :
    (b.setCtx k v).ctx j = b.ctx j := Tbl.get_set_ne _ _ _ _ h
@[simp] theorem Block.port_setCtx (b : Block) (k : Nat) (v : Ctx) (j : Nat) :
    (b.setCtx k v).port j = b.port j := rfl
@[simp] theorem Block.pd_setCtx (b : Block) (k : Nat) (v : Ctx) (j : Nat) :
    (b.setCtx k v).pd j = b.pd j := rfl
@[simp] theorem Block.ep_setCtx (b : Block) (k : Nat) (v : Ctx) (j : Nat) :
    (b.setCtx k v).ep j = b.ep j := rfl
@[simp] theorem Block.reg_setCtx (b : Block) (k : Nat) (v : Ctx) (j : Nat) :
    (b.setCtx k v).reg j = b.reg j := rfl
@[simp] theorem Block.mctx_setCtx (b : Block) (k : Nat) (v : Ctx) (j : Nat) :
    (b.setCtx k v).mctx j = b.mctx j := rfl
@[simp] theorem Block.queue_setCtx (b : Block) (k : Nat) (v : Ctx) (j : Nat) :
    (b.setCtx k v).queue j = b.queue j := rfl
@[simp] theorem Block.link_setCtx (b : Block) (k : Nat) (v : Ctx) (j : Nat) :
    (b.setCtx k v).link j = b.link j := rfl
@[simp] theorem Block.fn_setCtx (b : Block) (k : Nat) (v : Ctx) (j : Nat) :
    (b.setCtx k v).fn j = b.fn j := rfl
@[simp] theorem Block.lock_setCtx (b : Block) (k : Nat) (v : Ctx) (j : Nat) :
    (b.setCtx k v).lock j = b.lock j := rfl
@[simp] theorem Block.mould_setCtx (b : Block) (k : Nat) (v : Ctx) (j : Nat) :
    (b.setCtx k v).mould j = b.mould j := rfl
@[simp] theorem Block.fltOf_setCtx (b : Block) (k : Nat) (v : Ctx) (j : Nat) :
    (b.setCtx k v).fltOf j = b.fltOf j := rfl
@[simp] theorem Block.bank_setCtx (b : Block) (k : Nat) (v : Ctx) (j : Nat) :
    (b.setCtx k v).bank j = b.bank j := rfl
@[simp] theorem Block.clk_setCtx (b : Block) (k : Nat) (v : Ctx) (j : Nat) :
    (b.setCtx k v).clk j = b.clk j := rfl
@[simp] theorem Block.dom_setCtx (b : Block) (k : Nat) (v : Ctx) (j : Nat) :
    (b.setCtx k v).dom j = b.dom j := rfl

/-! ## setPd -/

@[simp] theorem Block.setPd_toNet (b : Block) (k : Nat) (v : Pd) :
    (b.setPd k v).toNet = b.toNet := rfl
@[simp] theorem Block.setPd_toHostSide (b : Block) (k : Nat) (v : Pd) :
    (b.setPd k v).toHostSide = b.toHostSide := rfl
@[simp] theorem Block.setPd_toMouldSide (b : Block) (k : Nat) (v : Pd) :
    (b.setPd k v).toMouldSide = b.toMouldSide := rfl
@[simp] theorem Block.setPd_toMgmt (b : Block) (k : Nat) (v : Pd) :
    (b.setPd k v).toMgmt = b.toMgmt := rfl
@[simp] theorem Block.setPd_toService (b : Block) (k : Nat) (v : Pd) :
    (b.setPd k v).toService = b.toService := rfl
@[simp] theorem Block.setPd_toPlatform (b : Block) (k : Nat) (v : Pd) :
    (b.setPd k v).toPlatform = b.toPlatform := rfl
@[simp] theorem Block.setPd_ctxs (b : Block) (k : Nat) (v : Pd) :
    (b.setPd k v).ctxs = b.ctxs := rfl
@[simp] theorem Block.setPd_ops (b : Block) (k : Nat) (v : Pd) :
    (b.setPd k v).ops = b.ops := rfl
@[simp] theorem Block.setPd_nextOp (b : Block) (k : Nat) (v : Pd) :
    (b.setPd k v).nextOp = b.nextOp := rfl
@[simp] theorem Block.setPd_dma (b : Block) (k : Nat) (v : Pd) :
    (b.setPd k v).dma = b.dma := rfl
@[simp] theorem Block.setPd_nextTag (b : Block) (k : Nat) (v : Pd) :
    (b.setPd k v).nextTag = b.nextTag := rfl
@[simp] theorem Block.setPd_atomics (b : Block) (k : Nat) (v : Pd) :
    (b.setPd k v).atomics = b.atomics := rfl
@[simp] theorem Block.setPd_fillStash (b : Block) (k : Nat) (v : Pd) :
    (b.setPd k v).fillStash = b.fillStash := rfl
@[simp] theorem Block.setPd_readWait (b : Block) (k : Nat) (v : Pd) :
    (b.setPd k v).readWait = b.readWait := rfl
@[simp] theorem Block.setPd_eps (b : Block) (k : Nat) (v : Pd) :
    (b.setPd k v).eps = b.eps := rfl
@[simp] theorem Block.setPd_regs (b : Block) (k : Nat) (v : Pd) :
    (b.setPd k v).regs = b.regs := rfl
@[simp] theorem Block.setPd_pool (b : Block) (k : Nat) (v : Pd) :
    (b.setPd k v).pool = b.pool := rfl
@[simp] theorem Block.setPd_mctxs (b : Block) (k : Nat) (v : Pd) :
    (b.setPd k v).mctxs = b.mctxs := rfl
@[simp] theorem Block.setPd_inflight (b : Block) (k : Nat) (v : Pd) :
    (b.setPd k v).inflight = b.inflight := rfl
@[simp] theorem Block.setPd_placeWait (b : Block) (k : Nat) (v : Pd) :
    (b.setPd k v).placeWait = b.placeWait := rfl
@[simp] theorem Block.setPd_out (b : Block) (k : Nat) (v : Pd) :
    (b.setPd k v).out = b.out := rfl
@[simp] theorem Block.setPd_now (b : Block) (k : Nat) (v : Pd) :
    (b.setPd k v).now = b.now := rfl
@[simp] theorem Block.setPd_fresh (b : Block) (k : Nat) (v : Pd) :
    (b.setPd k v).fresh = b.fresh := rfl
@[simp] theorem Block.pd_setPd_self (b : Block) (k : Nat) (v : Pd) :
    (b.setPd k v).pd k = v := Tbl.get_set_self _ _ _ _
@[simp] theorem Block.pd_setPd_ne (b : Block) (k : Nat) (v : Pd) {j : Nat} (h : j ≠ k) :
    (b.setPd k v).pd j = b.pd j := Tbl.get_set_ne _ _ _ _ h
@[simp] theorem Block.port_setPd (b : Block) (k : Nat) (v : Pd) (j : Nat) :
    (b.setPd k v).port j = b.port j := rfl
@[simp] theorem Block.ctx_setPd (b : Block) (k : Nat) (v : Pd) (j : Nat) :
    (b.setPd k v).ctx j = b.ctx j := rfl
@[simp] theorem Block.ep_setPd (b : Block) (k : Nat) (v : Pd) (j : Nat) :
    (b.setPd k v).ep j = b.ep j := rfl
@[simp] theorem Block.reg_setPd (b : Block) (k : Nat) (v : Pd) (j : Nat) :
    (b.setPd k v).reg j = b.reg j := rfl
@[simp] theorem Block.mctx_setPd (b : Block) (k : Nat) (v : Pd) (j : Nat) :
    (b.setPd k v).mctx j = b.mctx j := rfl
@[simp] theorem Block.queue_setPd (b : Block) (k : Nat) (v : Pd) (j : Nat) :
    (b.setPd k v).queue j = b.queue j := rfl
@[simp] theorem Block.link_setPd (b : Block) (k : Nat) (v : Pd) (j : Nat) :
    (b.setPd k v).link j = b.link j := rfl
@[simp] theorem Block.fn_setPd (b : Block) (k : Nat) (v : Pd) (j : Nat) :
    (b.setPd k v).fn j = b.fn j := rfl
@[simp] theorem Block.lock_setPd (b : Block) (k : Nat) (v : Pd) (j : Nat) :
    (b.setPd k v).lock j = b.lock j := rfl
@[simp] theorem Block.mould_setPd (b : Block) (k : Nat) (v : Pd) (j : Nat) :
    (b.setPd k v).mould j = b.mould j := rfl
@[simp] theorem Block.fltOf_setPd (b : Block) (k : Nat) (v : Pd) (j : Nat) :
    (b.setPd k v).fltOf j = b.fltOf j := rfl
@[simp] theorem Block.bank_setPd (b : Block) (k : Nat) (v : Pd) (j : Nat) :
    (b.setPd k v).bank j = b.bank j := rfl
@[simp] theorem Block.clk_setPd (b : Block) (k : Nat) (v : Pd) (j : Nat) :
    (b.setPd k v).clk j = b.clk j := rfl
@[simp] theorem Block.dom_setPd (b : Block) (k : Nat) (v : Pd) (j : Nat) :
    (b.setPd k v).dom j = b.dom j := rfl

/-! ## setEp -/

@[simp] theorem Block.setEp_toNet (b : Block) (k : Nat) (v : Ep) :
    (b.setEp k v).toNet = b.toNet := rfl
@[simp] theorem Block.setEp_toHostSide (b : Block) (k : Nat) (v : Ep) :
    (b.setEp k v).toHostSide = b.toHostSide := rfl
@[simp] theorem Block.setEp_toMouldSide (b : Block) (k : Nat) (v : Ep) :
    (b.setEp k v).toMouldSide = b.toMouldSide := rfl
@[simp] theorem Block.setEp_toMgmt (b : Block) (k : Nat) (v : Ep) :
    (b.setEp k v).toMgmt = b.toMgmt := rfl
@[simp] theorem Block.setEp_toService (b : Block) (k : Nat) (v : Ep) :
    (b.setEp k v).toService = b.toService := rfl
@[simp] theorem Block.setEp_toPlatform (b : Block) (k : Nat) (v : Ep) :
    (b.setEp k v).toPlatform = b.toPlatform := rfl
@[simp] theorem Block.setEp_ctxs (b : Block) (k : Nat) (v : Ep) :
    (b.setEp k v).ctxs = b.ctxs := rfl
@[simp] theorem Block.setEp_ops (b : Block) (k : Nat) (v : Ep) :
    (b.setEp k v).ops = b.ops := rfl
@[simp] theorem Block.setEp_nextOp (b : Block) (k : Nat) (v : Ep) :
    (b.setEp k v).nextOp = b.nextOp := rfl
@[simp] theorem Block.setEp_dma (b : Block) (k : Nat) (v : Ep) :
    (b.setEp k v).dma = b.dma := rfl
@[simp] theorem Block.setEp_nextTag (b : Block) (k : Nat) (v : Ep) :
    (b.setEp k v).nextTag = b.nextTag := rfl
@[simp] theorem Block.setEp_atomics (b : Block) (k : Nat) (v : Ep) :
    (b.setEp k v).atomics = b.atomics := rfl
@[simp] theorem Block.setEp_fillStash (b : Block) (k : Nat) (v : Ep) :
    (b.setEp k v).fillStash = b.fillStash := rfl
@[simp] theorem Block.setEp_readWait (b : Block) (k : Nat) (v : Ep) :
    (b.setEp k v).readWait = b.readWait := rfl
@[simp] theorem Block.setEp_pds (b : Block) (k : Nat) (v : Ep) :
    (b.setEp k v).pds = b.pds := rfl
@[simp] theorem Block.setEp_regs (b : Block) (k : Nat) (v : Ep) :
    (b.setEp k v).regs = b.regs := rfl
@[simp] theorem Block.setEp_pool (b : Block) (k : Nat) (v : Ep) :
    (b.setEp k v).pool = b.pool := rfl
@[simp] theorem Block.setEp_mctxs (b : Block) (k : Nat) (v : Ep) :
    (b.setEp k v).mctxs = b.mctxs := rfl
@[simp] theorem Block.setEp_inflight (b : Block) (k : Nat) (v : Ep) :
    (b.setEp k v).inflight = b.inflight := rfl
@[simp] theorem Block.setEp_placeWait (b : Block) (k : Nat) (v : Ep) :
    (b.setEp k v).placeWait = b.placeWait := rfl
@[simp] theorem Block.setEp_out (b : Block) (k : Nat) (v : Ep) :
    (b.setEp k v).out = b.out := rfl
@[simp] theorem Block.setEp_now (b : Block) (k : Nat) (v : Ep) :
    (b.setEp k v).now = b.now := rfl
@[simp] theorem Block.setEp_fresh (b : Block) (k : Nat) (v : Ep) :
    (b.setEp k v).fresh = b.fresh := rfl
@[simp] theorem Block.ep_setEp_self (b : Block) (k : Nat) (v : Ep) :
    (b.setEp k v).ep k = v := Tbl.get_set_self _ _ _ _
@[simp] theorem Block.ep_setEp_ne (b : Block) (k : Nat) (v : Ep) {j : Nat} (h : j ≠ k) :
    (b.setEp k v).ep j = b.ep j := Tbl.get_set_ne _ _ _ _ h
@[simp] theorem Block.port_setEp (b : Block) (k : Nat) (v : Ep) (j : Nat) :
    (b.setEp k v).port j = b.port j := rfl
@[simp] theorem Block.ctx_setEp (b : Block) (k : Nat) (v : Ep) (j : Nat) :
    (b.setEp k v).ctx j = b.ctx j := rfl
@[simp] theorem Block.pd_setEp (b : Block) (k : Nat) (v : Ep) (j : Nat) :
    (b.setEp k v).pd j = b.pd j := rfl
@[simp] theorem Block.reg_setEp (b : Block) (k : Nat) (v : Ep) (j : Nat) :
    (b.setEp k v).reg j = b.reg j := rfl
@[simp] theorem Block.mctx_setEp (b : Block) (k : Nat) (v : Ep) (j : Nat) :
    (b.setEp k v).mctx j = b.mctx j := rfl
@[simp] theorem Block.queue_setEp (b : Block) (k : Nat) (v : Ep) (j : Nat) :
    (b.setEp k v).queue j = b.queue j := rfl
@[simp] theorem Block.link_setEp (b : Block) (k : Nat) (v : Ep) (j : Nat) :
    (b.setEp k v).link j = b.link j := rfl
@[simp] theorem Block.fn_setEp (b : Block) (k : Nat) (v : Ep) (j : Nat) :
    (b.setEp k v).fn j = b.fn j := rfl
@[simp] theorem Block.lock_setEp (b : Block) (k : Nat) (v : Ep) (j : Nat) :
    (b.setEp k v).lock j = b.lock j := rfl
@[simp] theorem Block.mould_setEp (b : Block) (k : Nat) (v : Ep) (j : Nat) :
    (b.setEp k v).mould j = b.mould j := rfl
@[simp] theorem Block.fltOf_setEp (b : Block) (k : Nat) (v : Ep) (j : Nat) :
    (b.setEp k v).fltOf j = b.fltOf j := rfl
@[simp] theorem Block.bank_setEp (b : Block) (k : Nat) (v : Ep) (j : Nat) :
    (b.setEp k v).bank j = b.bank j := rfl
@[simp] theorem Block.clk_setEp (b : Block) (k : Nat) (v : Ep) (j : Nat) :
    (b.setEp k v).clk j = b.clk j := rfl
@[simp] theorem Block.dom_setEp (b : Block) (k : Nat) (v : Ep) (j : Nat) :
    (b.setEp k v).dom j = b.dom j := rfl

/-! ## setReg -/

@[simp] theorem Block.setReg_toNet (b : Block) (k : Nat) (v : Reg) :
    (b.setReg k v).toNet = b.toNet := rfl
@[simp] theorem Block.setReg_toHostSide (b : Block) (k : Nat) (v : Reg) :
    (b.setReg k v).toHostSide = b.toHostSide := rfl
@[simp] theorem Block.setReg_toMouldSide (b : Block) (k : Nat) (v : Reg) :
    (b.setReg k v).toMouldSide = b.toMouldSide := rfl
@[simp] theorem Block.setReg_toMgmt (b : Block) (k : Nat) (v : Reg) :
    (b.setReg k v).toMgmt = b.toMgmt := rfl
@[simp] theorem Block.setReg_toService (b : Block) (k : Nat) (v : Reg) :
    (b.setReg k v).toService = b.toService := rfl
@[simp] theorem Block.setReg_toPlatform (b : Block) (k : Nat) (v : Reg) :
    (b.setReg k v).toPlatform = b.toPlatform := rfl
@[simp] theorem Block.setReg_ctxs (b : Block) (k : Nat) (v : Reg) :
    (b.setReg k v).ctxs = b.ctxs := rfl
@[simp] theorem Block.setReg_ops (b : Block) (k : Nat) (v : Reg) :
    (b.setReg k v).ops = b.ops := rfl
@[simp] theorem Block.setReg_nextOp (b : Block) (k : Nat) (v : Reg) :
    (b.setReg k v).nextOp = b.nextOp := rfl
@[simp] theorem Block.setReg_dma (b : Block) (k : Nat) (v : Reg) :
    (b.setReg k v).dma = b.dma := rfl
@[simp] theorem Block.setReg_nextTag (b : Block) (k : Nat) (v : Reg) :
    (b.setReg k v).nextTag = b.nextTag := rfl
@[simp] theorem Block.setReg_atomics (b : Block) (k : Nat) (v : Reg) :
    (b.setReg k v).atomics = b.atomics := rfl
@[simp] theorem Block.setReg_fillStash (b : Block) (k : Nat) (v : Reg) :
    (b.setReg k v).fillStash = b.fillStash := rfl
@[simp] theorem Block.setReg_readWait (b : Block) (k : Nat) (v : Reg) :
    (b.setReg k v).readWait = b.readWait := rfl
@[simp] theorem Block.setReg_pds (b : Block) (k : Nat) (v : Reg) :
    (b.setReg k v).pds = b.pds := rfl
@[simp] theorem Block.setReg_eps (b : Block) (k : Nat) (v : Reg) :
    (b.setReg k v).eps = b.eps := rfl
@[simp] theorem Block.setReg_pool (b : Block) (k : Nat) (v : Reg) :
    (b.setReg k v).pool = b.pool := rfl
@[simp] theorem Block.setReg_mctxs (b : Block) (k : Nat) (v : Reg) :
    (b.setReg k v).mctxs = b.mctxs := rfl
@[simp] theorem Block.setReg_inflight (b : Block) (k : Nat) (v : Reg) :
    (b.setReg k v).inflight = b.inflight := rfl
@[simp] theorem Block.setReg_placeWait (b : Block) (k : Nat) (v : Reg) :
    (b.setReg k v).placeWait = b.placeWait := rfl
@[simp] theorem Block.setReg_out (b : Block) (k : Nat) (v : Reg) :
    (b.setReg k v).out = b.out := rfl
@[simp] theorem Block.setReg_now (b : Block) (k : Nat) (v : Reg) :
    (b.setReg k v).now = b.now := rfl
@[simp] theorem Block.setReg_fresh (b : Block) (k : Nat) (v : Reg) :
    (b.setReg k v).fresh = b.fresh := rfl
@[simp] theorem Block.reg_setReg_self (b : Block) (k : Nat) (v : Reg) :
    (b.setReg k v).reg k = v := Tbl.get_set_self _ _ _ _
@[simp] theorem Block.reg_setReg_ne (b : Block) (k : Nat) (v : Reg) {j : Nat} (h : j ≠ k) :
    (b.setReg k v).reg j = b.reg j := Tbl.get_set_ne _ _ _ _ h
@[simp] theorem Block.port_setReg (b : Block) (k : Nat) (v : Reg) (j : Nat) :
    (b.setReg k v).port j = b.port j := rfl
@[simp] theorem Block.ctx_setReg (b : Block) (k : Nat) (v : Reg) (j : Nat) :
    (b.setReg k v).ctx j = b.ctx j := rfl
@[simp] theorem Block.pd_setReg (b : Block) (k : Nat) (v : Reg) (j : Nat) :
    (b.setReg k v).pd j = b.pd j := rfl
@[simp] theorem Block.ep_setReg (b : Block) (k : Nat) (v : Reg) (j : Nat) :
    (b.setReg k v).ep j = b.ep j := rfl
@[simp] theorem Block.mctx_setReg (b : Block) (k : Nat) (v : Reg) (j : Nat) :
    (b.setReg k v).mctx j = b.mctx j := rfl
@[simp] theorem Block.queue_setReg (b : Block) (k : Nat) (v : Reg) (j : Nat) :
    (b.setReg k v).queue j = b.queue j := rfl
@[simp] theorem Block.link_setReg (b : Block) (k : Nat) (v : Reg) (j : Nat) :
    (b.setReg k v).link j = b.link j := rfl
@[simp] theorem Block.fn_setReg (b : Block) (k : Nat) (v : Reg) (j : Nat) :
    (b.setReg k v).fn j = b.fn j := rfl
@[simp] theorem Block.lock_setReg (b : Block) (k : Nat) (v : Reg) (j : Nat) :
    (b.setReg k v).lock j = b.lock j := rfl
@[simp] theorem Block.mould_setReg (b : Block) (k : Nat) (v : Reg) (j : Nat) :
    (b.setReg k v).mould j = b.mould j := rfl
@[simp] theorem Block.fltOf_setReg (b : Block) (k : Nat) (v : Reg) (j : Nat) :
    (b.setReg k v).fltOf j = b.fltOf j := rfl
@[simp] theorem Block.bank_setReg (b : Block) (k : Nat) (v : Reg) (j : Nat) :
    (b.setReg k v).bank j = b.bank j := rfl
@[simp] theorem Block.clk_setReg (b : Block) (k : Nat) (v : Reg) (j : Nat) :
    (b.setReg k v).clk j = b.clk j := rfl
@[simp] theorem Block.dom_setReg (b : Block) (k : Nat) (v : Reg) (j : Nat) :
    (b.setReg k v).dom j = b.dom j := rfl

/-! ## setMctx -/

@[simp] theorem Block.setMctx_toNet (b : Block) (k : Nat) (v : Mctx) :
    (b.setMctx k v).toNet = b.toNet := rfl
@[simp] theorem Block.setMctx_toHostSide (b : Block) (k : Nat) (v : Mctx) :
    (b.setMctx k v).toHostSide = b.toHostSide := rfl
@[simp] theorem Block.setMctx_toMouldSide (b : Block) (k : Nat) (v : Mctx) :
    (b.setMctx k v).toMouldSide = b.toMouldSide := rfl
@[simp] theorem Block.setMctx_toMgmt (b : Block) (k : Nat) (v : Mctx) :
    (b.setMctx k v).toMgmt = b.toMgmt := rfl
@[simp] theorem Block.setMctx_toService (b : Block) (k : Nat) (v : Mctx) :
    (b.setMctx k v).toService = b.toService := rfl
@[simp] theorem Block.setMctx_toPlatform (b : Block) (k : Nat) (v : Mctx) :
    (b.setMctx k v).toPlatform = b.toPlatform := rfl
@[simp] theorem Block.setMctx_ctxs (b : Block) (k : Nat) (v : Mctx) :
    (b.setMctx k v).ctxs = b.ctxs := rfl
@[simp] theorem Block.setMctx_ops (b : Block) (k : Nat) (v : Mctx) :
    (b.setMctx k v).ops = b.ops := rfl
@[simp] theorem Block.setMctx_nextOp (b : Block) (k : Nat) (v : Mctx) :
    (b.setMctx k v).nextOp = b.nextOp := rfl
@[simp] theorem Block.setMctx_dma (b : Block) (k : Nat) (v : Mctx) :
    (b.setMctx k v).dma = b.dma := rfl
@[simp] theorem Block.setMctx_nextTag (b : Block) (k : Nat) (v : Mctx) :
    (b.setMctx k v).nextTag = b.nextTag := rfl
@[simp] theorem Block.setMctx_atomics (b : Block) (k : Nat) (v : Mctx) :
    (b.setMctx k v).atomics = b.atomics := rfl
@[simp] theorem Block.setMctx_fillStash (b : Block) (k : Nat) (v : Mctx) :
    (b.setMctx k v).fillStash = b.fillStash := rfl
@[simp] theorem Block.setMctx_readWait (b : Block) (k : Nat) (v : Mctx) :
    (b.setMctx k v).readWait = b.readWait := rfl
@[simp] theorem Block.setMctx_pds (b : Block) (k : Nat) (v : Mctx) :
    (b.setMctx k v).pds = b.pds := rfl
@[simp] theorem Block.setMctx_eps (b : Block) (k : Nat) (v : Mctx) :
    (b.setMctx k v).eps = b.eps := rfl
@[simp] theorem Block.setMctx_regs (b : Block) (k : Nat) (v : Mctx) :
    (b.setMctx k v).regs = b.regs := rfl
@[simp] theorem Block.setMctx_pool (b : Block) (k : Nat) (v : Mctx) :
    (b.setMctx k v).pool = b.pool := rfl
@[simp] theorem Block.setMctx_inflight (b : Block) (k : Nat) (v : Mctx) :
    (b.setMctx k v).inflight = b.inflight := rfl
@[simp] theorem Block.setMctx_placeWait (b : Block) (k : Nat) (v : Mctx) :
    (b.setMctx k v).placeWait = b.placeWait := rfl
@[simp] theorem Block.setMctx_out (b : Block) (k : Nat) (v : Mctx) :
    (b.setMctx k v).out = b.out := rfl
@[simp] theorem Block.setMctx_now (b : Block) (k : Nat) (v : Mctx) :
    (b.setMctx k v).now = b.now := rfl
@[simp] theorem Block.setMctx_fresh (b : Block) (k : Nat) (v : Mctx) :
    (b.setMctx k v).fresh = b.fresh := rfl
@[simp] theorem Block.mctx_setMctx_self (b : Block) (k : Nat) (v : Mctx) :
    (b.setMctx k v).mctx k = v := Tbl.get_set_self _ _ _ _
@[simp] theorem Block.mctx_setMctx_ne (b : Block) (k : Nat) (v : Mctx) {j : Nat} (h : j ≠ k) :
    (b.setMctx k v).mctx j = b.mctx j := Tbl.get_set_ne _ _ _ _ h
@[simp] theorem Block.port_setMctx (b : Block) (k : Nat) (v : Mctx) (j : Nat) :
    (b.setMctx k v).port j = b.port j := rfl
@[simp] theorem Block.ctx_setMctx (b : Block) (k : Nat) (v : Mctx) (j : Nat) :
    (b.setMctx k v).ctx j = b.ctx j := rfl
@[simp] theorem Block.pd_setMctx (b : Block) (k : Nat) (v : Mctx) (j : Nat) :
    (b.setMctx k v).pd j = b.pd j := rfl
@[simp] theorem Block.ep_setMctx (b : Block) (k : Nat) (v : Mctx) (j : Nat) :
    (b.setMctx k v).ep j = b.ep j := rfl
@[simp] theorem Block.reg_setMctx (b : Block) (k : Nat) (v : Mctx) (j : Nat) :
    (b.setMctx k v).reg j = b.reg j := rfl
@[simp] theorem Block.queue_setMctx (b : Block) (k : Nat) (v : Mctx) (j : Nat) :
    (b.setMctx k v).queue j = b.queue j := rfl
@[simp] theorem Block.link_setMctx (b : Block) (k : Nat) (v : Mctx) (j : Nat) :
    (b.setMctx k v).link j = b.link j := rfl
@[simp] theorem Block.fn_setMctx (b : Block) (k : Nat) (v : Mctx) (j : Nat) :
    (b.setMctx k v).fn j = b.fn j := rfl
@[simp] theorem Block.lock_setMctx (b : Block) (k : Nat) (v : Mctx) (j : Nat) :
    (b.setMctx k v).lock j = b.lock j := rfl
@[simp] theorem Block.mould_setMctx (b : Block) (k : Nat) (v : Mctx) (j : Nat) :
    (b.setMctx k v).mould j = b.mould j := rfl
@[simp] theorem Block.fltOf_setMctx (b : Block) (k : Nat) (v : Mctx) (j : Nat) :
    (b.setMctx k v).fltOf j = b.fltOf j := rfl
@[simp] theorem Block.bank_setMctx (b : Block) (k : Nat) (v : Mctx) (j : Nat) :
    (b.setMctx k v).bank j = b.bank j := rfl
@[simp] theorem Block.clk_setMctx (b : Block) (k : Nat) (v : Mctx) (j : Nat) :
    (b.setMctx k v).clk j = b.clk j := rfl
@[simp] theorem Block.dom_setMctx (b : Block) (k : Nat) (v : Mctx) (j : Nat) :
    (b.setMctx k v).dom j = b.dom j := rfl

/-! ## setQueue -/

@[simp] theorem Block.setQueue_toNet (b : Block) (k : Nat) (v : Queue) :
    (b.setQueue k v).toNet = b.toNet := rfl
@[simp] theorem Block.setQueue_toTransport (b : Block) (k : Nat) (v : Queue) :
    (b.setQueue k v).toTransport = b.toTransport := rfl
@[simp] theorem Block.setQueue_toMouldSide (b : Block) (k : Nat) (v : Queue) :
    (b.setQueue k v).toMouldSide = b.toMouldSide := rfl
@[simp] theorem Block.setQueue_toMgmt (b : Block) (k : Nat) (v : Queue) :
    (b.setQueue k v).toMgmt = b.toMgmt := rfl
@[simp] theorem Block.setQueue_toService (b : Block) (k : Nat) (v : Queue) :
    (b.setQueue k v).toService = b.toService := rfl
@[simp] theorem Block.setQueue_toPlatform (b : Block) (k : Nat) (v : Queue) :
    (b.setQueue k v).toPlatform = b.toPlatform := rfl
@[simp] theorem Block.setQueue_links (b : Block) (k : Nat) (v : Queue) :
    (b.setQueue k v).links = b.links := rfl
@[simp] theorem Block.setQueue_fns (b : Block) (k : Nat) (v : Queue) :
    (b.setQueue k v).fns = b.fns := rfl
@[simp] theorem Block.setQueue_issueFn (b : Block) (k : Nat) (v : Queue) :
    (b.setQueue k v).issueFn = b.issueFn := rfl
@[simp] theorem Block.setQueue_agentFn (b : Block) (k : Nat) (v : Queue) :
    (b.setQueue k v).agentFn = b.agentFn := rfl
@[simp] theorem Block.setQueue_locks (b : Block) (k : Nat) (v : Queue) :
    (b.setQueue k v).locks = b.locks := rfl
@[simp] theorem Block.setQueue_out (b : Block) (k : Nat) (v : Queue) :
    (b.setQueue k v).out = b.out := rfl
@[simp] theorem Block.setQueue_now (b : Block) (k : Nat) (v : Queue) :
    (b.setQueue k v).now = b.now := rfl
@[simp] theorem Block.setQueue_fresh (b : Block) (k : Nat) (v : Queue) :
    (b.setQueue k v).fresh = b.fresh := rfl
@[simp] theorem Block.queue_setQueue_self (b : Block) (k : Nat) (v : Queue) :
    (b.setQueue k v).queue k = v := Tbl.get_set_self _ _ _ _
@[simp] theorem Block.queue_setQueue_ne (b : Block) (k : Nat) (v : Queue) {j : Nat} (h : j ≠ k) :
    (b.setQueue k v).queue j = b.queue j := Tbl.get_set_ne _ _ _ _ h
@[simp] theorem Block.port_setQueue (b : Block) (k : Nat) (v : Queue) (j : Nat) :
    (b.setQueue k v).port j = b.port j := rfl
@[simp] theorem Block.ctx_setQueue (b : Block) (k : Nat) (v : Queue) (j : Nat) :
    (b.setQueue k v).ctx j = b.ctx j := rfl
@[simp] theorem Block.pd_setQueue (b : Block) (k : Nat) (v : Queue) (j : Nat) :
    (b.setQueue k v).pd j = b.pd j := rfl
@[simp] theorem Block.ep_setQueue (b : Block) (k : Nat) (v : Queue) (j : Nat) :
    (b.setQueue k v).ep j = b.ep j := rfl
@[simp] theorem Block.reg_setQueue (b : Block) (k : Nat) (v : Queue) (j : Nat) :
    (b.setQueue k v).reg j = b.reg j := rfl
@[simp] theorem Block.mctx_setQueue (b : Block) (k : Nat) (v : Queue) (j : Nat) :
    (b.setQueue k v).mctx j = b.mctx j := rfl
@[simp] theorem Block.link_setQueue (b : Block) (k : Nat) (v : Queue) (j : Nat) :
    (b.setQueue k v).link j = b.link j := rfl
@[simp] theorem Block.fn_setQueue (b : Block) (k : Nat) (v : Queue) (j : Nat) :
    (b.setQueue k v).fn j = b.fn j := rfl
@[simp] theorem Block.lock_setQueue (b : Block) (k : Nat) (v : Queue) (j : Nat) :
    (b.setQueue k v).lock j = b.lock j := rfl
@[simp] theorem Block.mould_setQueue (b : Block) (k : Nat) (v : Queue) (j : Nat) :
    (b.setQueue k v).mould j = b.mould j := rfl
@[simp] theorem Block.fltOf_setQueue (b : Block) (k : Nat) (v : Queue) (j : Nat) :
    (b.setQueue k v).fltOf j = b.fltOf j := rfl
@[simp] theorem Block.bank_setQueue (b : Block) (k : Nat) (v : Queue) (j : Nat) :
    (b.setQueue k v).bank j = b.bank j := rfl
@[simp] theorem Block.clk_setQueue (b : Block) (k : Nat) (v : Queue) (j : Nat) :
    (b.setQueue k v).clk j = b.clk j := rfl
@[simp] theorem Block.dom_setQueue (b : Block) (k : Nat) (v : Queue) (j : Nat) :
    (b.setQueue k v).dom j = b.dom j := rfl

/-! ## setLink -/

@[simp] theorem Block.setLink_toNet (b : Block) (k : Nat) (v : HostLink) :
    (b.setLink k v).toNet = b.toNet := rfl
@[simp] theorem Block.setLink_toTransport (b : Block) (k : Nat) (v : HostLink) :
    (b.setLink k v).toTransport = b.toTransport := rfl
@[simp] theorem Block.setLink_toMouldSide (b : Block) (k : Nat) (v : HostLink) :
    (b.setLink k v).toMouldSide = b.toMouldSide := rfl
@[simp] theorem Block.setLink_toMgmt (b : Block) (k : Nat) (v : HostLink) :
    (b.setLink k v).toMgmt = b.toMgmt := rfl
@[simp] theorem Block.setLink_toService (b : Block) (k : Nat) (v : HostLink) :
    (b.setLink k v).toService = b.toService := rfl
@[simp] theorem Block.setLink_toPlatform (b : Block) (k : Nat) (v : HostLink) :
    (b.setLink k v).toPlatform = b.toPlatform := rfl
@[simp] theorem Block.setLink_queues (b : Block) (k : Nat) (v : HostLink) :
    (b.setLink k v).queues = b.queues := rfl
@[simp] theorem Block.setLink_fns (b : Block) (k : Nat) (v : HostLink) :
    (b.setLink k v).fns = b.fns := rfl
@[simp] theorem Block.setLink_issueFn (b : Block) (k : Nat) (v : HostLink) :
    (b.setLink k v).issueFn = b.issueFn := rfl
@[simp] theorem Block.setLink_agentFn (b : Block) (k : Nat) (v : HostLink) :
    (b.setLink k v).agentFn = b.agentFn := rfl
@[simp] theorem Block.setLink_locks (b : Block) (k : Nat) (v : HostLink) :
    (b.setLink k v).locks = b.locks := rfl
@[simp] theorem Block.setLink_out (b : Block) (k : Nat) (v : HostLink) :
    (b.setLink k v).out = b.out := rfl
@[simp] theorem Block.setLink_now (b : Block) (k : Nat) (v : HostLink) :
    (b.setLink k v).now = b.now := rfl
@[simp] theorem Block.setLink_fresh (b : Block) (k : Nat) (v : HostLink) :
    (b.setLink k v).fresh = b.fresh := rfl
@[simp] theorem Block.link_setLink_self (b : Block) (k : Nat) (v : HostLink) :
    (b.setLink k v).link k = v := Tbl.get_set_self _ _ _ _
@[simp] theorem Block.link_setLink_ne (b : Block) (k : Nat) (v : HostLink) {j : Nat} (h : j ≠ k) :
    (b.setLink k v).link j = b.link j := Tbl.get_set_ne _ _ _ _ h
@[simp] theorem Block.port_setLink (b : Block) (k : Nat) (v : HostLink) (j : Nat) :
    (b.setLink k v).port j = b.port j := rfl
@[simp] theorem Block.ctx_setLink (b : Block) (k : Nat) (v : HostLink) (j : Nat) :
    (b.setLink k v).ctx j = b.ctx j := rfl
@[simp] theorem Block.pd_setLink (b : Block) (k : Nat) (v : HostLink) (j : Nat) :
    (b.setLink k v).pd j = b.pd j := rfl
@[simp] theorem Block.ep_setLink (b : Block) (k : Nat) (v : HostLink) (j : Nat) :
    (b.setLink k v).ep j = b.ep j := rfl
@[simp] theorem Block.reg_setLink (b : Block) (k : Nat) (v : HostLink) (j : Nat) :
    (b.setLink k v).reg j = b.reg j := rfl
@[simp] theorem Block.mctx_setLink (b : Block) (k : Nat) (v : HostLink) (j : Nat) :
    (b.setLink k v).mctx j = b.mctx j := rfl
@[simp] theorem Block.queue_setLink (b : Block) (k : Nat) (v : HostLink) (j : Nat) :
    (b.setLink k v).queue j = b.queue j := rfl
@[simp] theorem Block.fn_setLink (b : Block) (k : Nat) (v : HostLink) (j : Nat) :
    (b.setLink k v).fn j = b.fn j := rfl
@[simp] theorem Block.lock_setLink (b : Block) (k : Nat) (v : HostLink) (j : Nat) :
    (b.setLink k v).lock j = b.lock j := rfl
@[simp] theorem Block.mould_setLink (b : Block) (k : Nat) (v : HostLink) (j : Nat) :
    (b.setLink k v).mould j = b.mould j := rfl
@[simp] theorem Block.fltOf_setLink (b : Block) (k : Nat) (v : HostLink) (j : Nat) :
    (b.setLink k v).fltOf j = b.fltOf j := rfl
@[simp] theorem Block.bank_setLink (b : Block) (k : Nat) (v : HostLink) (j : Nat) :
    (b.setLink k v).bank j = b.bank j := rfl
@[simp] theorem Block.clk_setLink (b : Block) (k : Nat) (v : HostLink) (j : Nat) :
    (b.setLink k v).clk j = b.clk j := rfl
@[simp] theorem Block.dom_setLink (b : Block) (k : Nat) (v : HostLink) (j : Nat) :
    (b.setLink k v).dom j = b.dom j := rfl

/-! ## setFn -/

@[simp] theorem Block.setFn_toNet (b : Block) (k : Nat) (v : Fn) :
    (b.setFn k v).toNet = b.toNet := rfl
@[simp] theorem Block.setFn_toTransport (b : Block) (k : Nat) (v : Fn) :
    (b.setFn k v).toTransport = b.toTransport := rfl
@[simp] theorem Block.setFn_toMouldSide (b : Block) (k : Nat) (v : Fn) :
    (b.setFn k v).toMouldSide = b.toMouldSide := rfl
@[simp] theorem Block.setFn_toMgmt (b : Block) (k : Nat) (v : Fn) :
    (b.setFn k v).toMgmt = b.toMgmt := rfl
@[simp] theorem Block.setFn_toService (b : Block) (k : Nat) (v : Fn) :
    (b.setFn k v).toService = b.toService := rfl
@[simp] theorem Block.setFn_toPlatform (b : Block) (k : Nat) (v : Fn) :
    (b.setFn k v).toPlatform = b.toPlatform := rfl
@[simp] theorem Block.setFn_queues (b : Block) (k : Nat) (v : Fn) :
    (b.setFn k v).queues = b.queues := rfl
@[simp] theorem Block.setFn_links (b : Block) (k : Nat) (v : Fn) :
    (b.setFn k v).links = b.links := rfl
@[simp] theorem Block.setFn_issueFn (b : Block) (k : Nat) (v : Fn) :
    (b.setFn k v).issueFn = b.issueFn := rfl
@[simp] theorem Block.setFn_agentFn (b : Block) (k : Nat) (v : Fn) :
    (b.setFn k v).agentFn = b.agentFn := rfl
@[simp] theorem Block.setFn_locks (b : Block) (k : Nat) (v : Fn) :
    (b.setFn k v).locks = b.locks := rfl
@[simp] theorem Block.setFn_out (b : Block) (k : Nat) (v : Fn) :
    (b.setFn k v).out = b.out := rfl
@[simp] theorem Block.setFn_now (b : Block) (k : Nat) (v : Fn) :
    (b.setFn k v).now = b.now := rfl
@[simp] theorem Block.setFn_fresh (b : Block) (k : Nat) (v : Fn) :
    (b.setFn k v).fresh = b.fresh := rfl
@[simp] theorem Block.fn_setFn_self (b : Block) (k : Nat) (v : Fn) :
    (b.setFn k v).fn k = v := Tbl.get_set_self _ _ _ _
@[simp] theorem Block.fn_setFn_ne (b : Block) (k : Nat) (v : Fn) {j : Nat} (h : j ≠ k) :
    (b.setFn k v).fn j = b.fn j := Tbl.get_set_ne _ _ _ _ h
@[simp] theorem Block.port_setFn (b : Block) (k : Nat) (v : Fn) (j : Nat) :
    (b.setFn k v).port j = b.port j := rfl
@[simp] theorem Block.ctx_setFn (b : Block) (k : Nat) (v : Fn) (j : Nat) :
    (b.setFn k v).ctx j = b.ctx j := rfl
@[simp] theorem Block.pd_setFn (b : Block) (k : Nat) (v : Fn) (j : Nat) :
    (b.setFn k v).pd j = b.pd j := rfl
@[simp] theorem Block.ep_setFn (b : Block) (k : Nat) (v : Fn) (j : Nat) :
    (b.setFn k v).ep j = b.ep j := rfl
@[simp] theorem Block.reg_setFn (b : Block) (k : Nat) (v : Fn) (j : Nat) :
    (b.setFn k v).reg j = b.reg j := rfl
@[simp] theorem Block.mctx_setFn (b : Block) (k : Nat) (v : Fn) (j : Nat) :
    (b.setFn k v).mctx j = b.mctx j := rfl
@[simp] theorem Block.queue_setFn (b : Block) (k : Nat) (v : Fn) (j : Nat) :
    (b.setFn k v).queue j = b.queue j := rfl
@[simp] theorem Block.link_setFn (b : Block) (k : Nat) (v : Fn) (j : Nat) :
    (b.setFn k v).link j = b.link j := rfl
@[simp] theorem Block.lock_setFn (b : Block) (k : Nat) (v : Fn) (j : Nat) :
    (b.setFn k v).lock j = b.lock j := rfl
@[simp] theorem Block.mould_setFn (b : Block) (k : Nat) (v : Fn) (j : Nat) :
    (b.setFn k v).mould j = b.mould j := rfl
@[simp] theorem Block.fltOf_setFn (b : Block) (k : Nat) (v : Fn) (j : Nat) :
    (b.setFn k v).fltOf j = b.fltOf j := rfl
@[simp] theorem Block.bank_setFn (b : Block) (k : Nat) (v : Fn) (j : Nat) :
    (b.setFn k v).bank j = b.bank j := rfl
@[simp] theorem Block.clk_setFn (b : Block) (k : Nat) (v : Fn) (j : Nat) :
    (b.setFn k v).clk j = b.clk j := rfl
@[simp] theorem Block.dom_setFn (b : Block) (k : Nat) (v : Fn) (j : Nat) :
    (b.setFn k v).dom j = b.dom j := rfl

/-! ## setLock -/

@[simp] theorem Block.setLock_toNet (b : Block) (k : Nat) (v : Lock) :
    (b.setLock k v).toNet = b.toNet := rfl
@[simp] theorem Block.setLock_toTransport (b : Block) (k : Nat) (v : Lock) :
    (b.setLock k v).toTransport = b.toTransport := rfl
@[simp] theorem Block.setLock_toMouldSide (b : Block) (k : Nat) (v : Lock) :
    (b.setLock k v).toMouldSide = b.toMouldSide := rfl
@[simp] theorem Block.setLock_toMgmt (b : Block) (k : Nat) (v : Lock) :
    (b.setLock k v).toMgmt = b.toMgmt := rfl
@[simp] theorem Block.setLock_toService (b : Block) (k : Nat) (v : Lock) :
    (b.setLock k v).toService = b.toService := rfl
@[simp] theorem Block.setLock_toPlatform (b : Block) (k : Nat) (v : Lock) :
    (b.setLock k v).toPlatform = b.toPlatform := rfl
@[simp] theorem Block.setLock_queues (b : Block) (k : Nat) (v : Lock) :
    (b.setLock k v).queues = b.queues := rfl
@[simp] theorem Block.setLock_links (b : Block) (k : Nat) (v : Lock) :
    (b.setLock k v).links = b.links := rfl
@[simp] theorem Block.setLock_fns (b : Block) (k : Nat) (v : Lock) :
    (b.setLock k v).fns = b.fns := rfl
@[simp] theorem Block.setLock_issueFn (b : Block) (k : Nat) (v : Lock) :
    (b.setLock k v).issueFn = b.issueFn := rfl
@[simp] theorem Block.setLock_agentFn (b : Block) (k : Nat) (v : Lock) :
    (b.setLock k v).agentFn = b.agentFn := rfl
@[simp] theorem Block.setLock_out (b : Block) (k : Nat) (v : Lock) :
    (b.setLock k v).out = b.out := rfl
@[simp] theorem Block.setLock_now (b : Block) (k : Nat) (v : Lock) :
    (b.setLock k v).now = b.now := rfl
@[simp] theorem Block.setLock_fresh (b : Block) (k : Nat) (v : Lock) :
    (b.setLock k v).fresh = b.fresh := rfl
@[simp] theorem Block.lock_setLock_self (b : Block) (k : Nat) (v : Lock) :
    (b.setLock k v).lock k = v := Tbl.get_set_self _ _ _ _
@[simp] theorem Block.lock_setLock_ne (b : Block) (k : Nat) (v : Lock) {j : Nat} (h : j ≠ k) :
    (b.setLock k v).lock j = b.lock j := Tbl.get_set_ne _ _ _ _ h
@[simp] theorem Block.port_setLock (b : Block) (k : Nat) (v : Lock) (j : Nat) :
    (b.setLock k v).port j = b.port j := rfl
@[simp] theorem Block.ctx_setLock (b : Block) (k : Nat) (v : Lock) (j : Nat) :
    (b.setLock k v).ctx j = b.ctx j := rfl
@[simp] theorem Block.pd_setLock (b : Block) (k : Nat) (v : Lock) (j : Nat) :
    (b.setLock k v).pd j = b.pd j := rfl
@[simp] theorem Block.ep_setLock (b : Block) (k : Nat) (v : Lock) (j : Nat) :
    (b.setLock k v).ep j = b.ep j := rfl
@[simp] theorem Block.reg_setLock (b : Block) (k : Nat) (v : Lock) (j : Nat) :
    (b.setLock k v).reg j = b.reg j := rfl
@[simp] theorem Block.mctx_setLock (b : Block) (k : Nat) (v : Lock) (j : Nat) :
    (b.setLock k v).mctx j = b.mctx j := rfl
@[simp] theorem Block.queue_setLock (b : Block) (k : Nat) (v : Lock) (j : Nat) :
    (b.setLock k v).queue j = b.queue j := rfl
@[simp] theorem Block.link_setLock (b : Block) (k : Nat) (v : Lock) (j : Nat) :
    (b.setLock k v).link j = b.link j := rfl
@[simp] theorem Block.fn_setLock (b : Block) (k : Nat) (v : Lock) (j : Nat) :
    (b.setLock k v).fn j = b.fn j := rfl
@[simp] theorem Block.mould_setLock (b : Block) (k : Nat) (v : Lock) (j : Nat) :
    (b.setLock k v).mould j = b.mould j := rfl
@[simp] theorem Block.fltOf_setLock (b : Block) (k : Nat) (v : Lock) (j : Nat) :
    (b.setLock k v).fltOf j = b.fltOf j := rfl
@[simp] theorem Block.bank_setLock (b : Block) (k : Nat) (v : Lock) (j : Nat) :
    (b.setLock k v).bank j = b.bank j := rfl
@[simp] theorem Block.clk_setLock (b : Block) (k : Nat) (v : Lock) (j : Nat) :
    (b.setLock k v).clk j = b.clk j := rfl
@[simp] theorem Block.dom_setLock (b : Block) (k : Nat) (v : Lock) (j : Nat) :
    (b.setLock k v).dom j = b.dom j := rfl

/-! ## setMould -/

@[simp] theorem Block.setMould_toNet (b : Block) (k : Nat) (v : Mould) :
    (b.setMould k v).toNet = b.toNet := rfl
@[simp] theorem Block.setMould_toTransport (b : Block) (k : Nat) (v : Mould) :
    (b.setMould k v).toTransport = b.toTransport := rfl
@[simp] theorem Block.setMould_toHostSide (b : Block) (k : Nat) (v : Mould) :
    (b.setMould k v).toHostSide = b.toHostSide := rfl
@[simp] theorem Block.setMould_toMgmt (b : Block) (k : Nat) (v : Mould) :
    (b.setMould k v).toMgmt = b.toMgmt := rfl
@[simp] theorem Block.setMould_toService (b : Block) (k : Nat) (v : Mould) :
    (b.setMould k v).toService = b.toService := rfl
@[simp] theorem Block.setMould_toPlatform (b : Block) (k : Nat) (v : Mould) :
    (b.setMould k v).toPlatform = b.toPlatform := rfl
@[simp] theorem Block.setMould_slots (b : Block) (k : Nat) (v : Mould) :
    (b.setMould k v).slots = b.slots := rfl
@[simp] theorem Block.setMould_badSlots (b : Block) (k : Nat) (v : Mould) :
    (b.setMould k v).badSlots = b.badSlots := rfl
@[simp] theorem Block.setMould_gathers (b : Block) (k : Nat) (v : Mould) :
    (b.setMould k v).gathers = b.gathers := rfl
@[simp] theorem Block.setMould_freed (b : Block) (k : Nat) (v : Mould) :
    (b.setMould k v).freed = b.freed := rfl
@[simp] theorem Block.setMould_out (b : Block) (k : Nat) (v : Mould) :
    (b.setMould k v).out = b.out := rfl
@[simp] theorem Block.setMould_now (b : Block) (k : Nat) (v : Mould) :
    (b.setMould k v).now = b.now := rfl
@[simp] theorem Block.setMould_fresh (b : Block) (k : Nat) (v : Mould) :
    (b.setMould k v).fresh = b.fresh := rfl
@[simp] theorem Block.mould_setMould_self (b : Block) (k : Nat) (v : Mould) :
    (b.setMould k v).mould k = v := Tbl.get_set_self _ _ _ _
@[simp] theorem Block.mould_setMould_ne (b : Block) (k : Nat) (v : Mould) {j : Nat} (h : j ≠ k) :
    (b.setMould k v).mould j = b.mould j := Tbl.get_set_ne _ _ _ _ h
@[simp] theorem Block.port_setMould (b : Block) (k : Nat) (v : Mould) (j : Nat) :
    (b.setMould k v).port j = b.port j := rfl
@[simp] theorem Block.ctx_setMould (b : Block) (k : Nat) (v : Mould) (j : Nat) :
    (b.setMould k v).ctx j = b.ctx j := rfl
@[simp] theorem Block.pd_setMould (b : Block) (k : Nat) (v : Mould) (j : Nat) :
    (b.setMould k v).pd j = b.pd j := rfl
@[simp] theorem Block.ep_setMould (b : Block) (k : Nat) (v : Mould) (j : Nat) :
    (b.setMould k v).ep j = b.ep j := rfl
@[simp] theorem Block.reg_setMould (b : Block) (k : Nat) (v : Mould) (j : Nat) :
    (b.setMould k v).reg j = b.reg j := rfl
@[simp] theorem Block.mctx_setMould (b : Block) (k : Nat) (v : Mould) (j : Nat) :
    (b.setMould k v).mctx j = b.mctx j := rfl
@[simp] theorem Block.queue_setMould (b : Block) (k : Nat) (v : Mould) (j : Nat) :
    (b.setMould k v).queue j = b.queue j := rfl
@[simp] theorem Block.link_setMould (b : Block) (k : Nat) (v : Mould) (j : Nat) :
    (b.setMould k v).link j = b.link j := rfl
@[simp] theorem Block.fn_setMould (b : Block) (k : Nat) (v : Mould) (j : Nat) :
    (b.setMould k v).fn j = b.fn j := rfl
@[simp] theorem Block.lock_setMould (b : Block) (k : Nat) (v : Mould) (j : Nat) :
    (b.setMould k v).lock j = b.lock j := rfl
@[simp] theorem Block.fltOf_setMould (b : Block) (k : Nat) (v : Mould) (j : Nat) :
    (b.setMould k v).fltOf j = b.fltOf j := rfl
@[simp] theorem Block.bank_setMould (b : Block) (k : Nat) (v : Mould) (j : Nat) :
    (b.setMould k v).bank j = b.bank j := rfl
@[simp] theorem Block.clk_setMould (b : Block) (k : Nat) (v : Mould) (j : Nat) :
    (b.setMould k v).clk j = b.clk j := rfl
@[simp] theorem Block.dom_setMould (b : Block) (k : Nat) (v : Mould) (j : Nat) :
    (b.setMould k v).dom j = b.dom j := rfl

/-! ## setFlt -/

@[simp] theorem Block.setFlt_toNet (b : Block) (k : Nat) (v : Flt) :
    (b.setFlt k v).toNet = b.toNet := rfl
@[simp] theorem Block.setFlt_toTransport (b : Block) (k : Nat) (v : Flt) :
    (b.setFlt k v).toTransport = b.toTransport := rfl
@[simp] theorem Block.setFlt_toHostSide (b : Block) (k : Nat) (v : Flt) :
    (b.setFlt k v).toHostSide = b.toHostSide := rfl
@[simp] theorem Block.setFlt_toMouldSide (b : Block) (k : Nat) (v : Flt) :
    (b.setFlt k v).toMouldSide = b.toMouldSide := rfl
@[simp] theorem Block.setFlt_toMgmt (b : Block) (k : Nat) (v : Flt) :
    (b.setFlt k v).toMgmt = b.toMgmt := rfl
@[simp] theorem Block.setFlt_toPlatform (b : Block) (k : Nat) (v : Flt) :
    (b.setFlt k v).toPlatform = b.toPlatform := rfl
@[simp] theorem Block.setFlt_regionMask (b : Block) (k : Nat) (v : Flt) :
    (b.setFlt k v).regionMask = b.regionMask := rfl
@[simp] theorem Block.setFlt_clusterMask (b : Block) (k : Nat) (v : Flt) :
    (b.setFlt k v).clusterMask = b.clusterMask := rfl
@[simp] theorem Block.setFlt_spSh (b : Block) (k : Nat) (v : Flt) :
    (b.setFlt k v).spSh = b.spSh := rfl
@[simp] theorem Block.setFlt_spAct (b : Block) (k : Nat) (v : Flt) :
    (b.setFlt k v).spAct = b.spAct := rfl
@[simp] theorem Block.setFlt_quench (b : Block) (k : Nat) (v : Flt) :
    (b.setFlt k v).quench = b.quench := rfl
@[simp] theorem Block.setFlt_quenchCause (b : Block) (k : Nat) (v : Flt) :
    (b.setFlt k v).quenchCause = b.quenchCause := rfl
@[simp] theorem Block.setFlt_react (b : Block) (k : Nat) (v : Flt) :
    (b.setFlt k v).react = b.react := rfl
@[simp] theorem Block.setFlt_reactSh (b : Block) (k : Nat) (v : Flt) :
    (b.setFlt k v).reactSh = b.reactSh := rfl
@[simp] theorem Block.setFlt_reactDue (b : Block) (k : Nat) (v : Flt) :
    (b.setFlt k v).reactDue = b.reactDue := rfl
@[simp] theorem Block.setFlt_reacts (b : Block) (k : Nat) (v : Flt) :
    (b.setFlt k v).reacts = b.reacts := rfl
@[simp] theorem Block.setFlt_fatalLow (b : Block) (k : Nat) (v : Flt) :
    (b.setFlt k v).fatalLow = b.fatalLow := rfl
@[simp] theorem Block.setFlt_regions (b : Block) (k : Nat) (v : Flt) :
    (b.setFlt k v).regions = b.regions := rfl
@[simp] theorem Block.setFlt_banks (b : Block) (k : Nat) (v : Flt) :
    (b.setFlt k v).banks = b.banks := rfl
@[simp] theorem Block.setFlt_scrubPasses (b : Block) (k : Nat) (v : Flt) :
    (b.setFlt k v).scrubPasses = b.scrubPasses := rfl
@[simp] theorem Block.setFlt_carve (b : Block) (k : Nat) (v : Flt) :
    (b.setFlt k v).carve = b.carve := rfl
@[simp] theorem Block.setFlt_carveLost (b : Block) (k : Nat) (v : Flt) :
    (b.setFlt k v).carveLost = b.carveLost := rfl
@[simp] theorem Block.setFlt_carveFreeUsed (b : Block) (k : Nat) (v : Flt) :
    (b.setFlt k v).carveFreeUsed = b.carveFreeUsed := rfl
@[simp] theorem Block.setFlt_ladleLost (b : Block) (k : Nat) (v : Flt) :
    (b.setFlt k v).ladleLost = b.ladleLost := rfl
@[simp] theorem Block.setFlt_rowsUsed (b : Block) (k : Nat) (v : Flt) :
    (b.setFlt k v).rowsUsed = b.rowsUsed := rfl
@[simp] theorem Block.setFlt_banksRetired (b : Block) (k : Nat) (v : Flt) :
    (b.setFlt k v).banksRetired = b.banksRetired := rfl
@[simp] theorem Block.setFlt_degraded (b : Block) (k : Nat) (v : Flt) :
    (b.setFlt k v).degraded = b.degraded := rfl
@[simp] theorem Block.setFlt_counters (b : Block) (k : Nat) (v : Flt) :
    (b.setFlt k v).counters = b.counters := rfl
@[simp] theorem Block.setFlt_ctrEvent (b : Block) (k : Nat) (v : Flt) :
    (b.setFlt k v).ctrEvent = b.ctrEvent := rfl
@[simp] theorem Block.setFlt_bwWindow (b : Block) (k : Nat) (v : Flt) :
    (b.setFlt k v).bwWindow = b.bwWindow := rfl
@[simp] theorem Block.setFlt_bwNext (b : Block) (k : Nat) (v : Flt) :
    (b.setFlt k v).bwNext = b.bwNext := rfl
@[simp] theorem Block.setFlt_bwEnd (b : Block) (k : Nat) (v : Flt) :
    (b.setFlt k v).bwEnd = b.bwEnd := rfl
@[simp] theorem Block.setFlt_bwStepped (b : Block) (k : Nat) (v : Flt) :
    (b.setFlt k v).bwStepped = b.bwStepped := rfl
@[simp] theorem Block.setFlt_stagingBad (b : Block) (k : Nat) (v : Flt) :
    (b.setFlt k v).stagingBad = b.stagingBad := rfl
@[simp] theorem Block.setFlt_out (b : Block) (k : Nat) (v : Flt) :
    (b.setFlt k v).out = b.out := rfl
@[simp] theorem Block.setFlt_now (b : Block) (k : Nat) (v : Flt) :
    (b.setFlt k v).now = b.now := rfl
@[simp] theorem Block.setFlt_fresh (b : Block) (k : Nat) (v : Flt) :
    (b.setFlt k v).fresh = b.fresh := rfl
@[simp] theorem Block.fltOf_setFlt_self (b : Block) (k : Nat) (v : Flt) :
    (b.setFlt k v).fltOf k = v := Tbl.get_set_self _ _ _ _
@[simp] theorem Block.fltOf_setFlt_ne (b : Block) (k : Nat) (v : Flt) {j : Nat} (h : j ≠ k) :
    (b.setFlt k v).fltOf j = b.fltOf j := Tbl.get_set_ne _ _ _ _ h
@[simp] theorem Block.port_setFlt (b : Block) (k : Nat) (v : Flt) (j : Nat) :
    (b.setFlt k v).port j = b.port j := rfl
@[simp] theorem Block.ctx_setFlt (b : Block) (k : Nat) (v : Flt) (j : Nat) :
    (b.setFlt k v).ctx j = b.ctx j := rfl
@[simp] theorem Block.pd_setFlt (b : Block) (k : Nat) (v : Flt) (j : Nat) :
    (b.setFlt k v).pd j = b.pd j := rfl
@[simp] theorem Block.ep_setFlt (b : Block) (k : Nat) (v : Flt) (j : Nat) :
    (b.setFlt k v).ep j = b.ep j := rfl
@[simp] theorem Block.reg_setFlt (b : Block) (k : Nat) (v : Flt) (j : Nat) :
    (b.setFlt k v).reg j = b.reg j := rfl
@[simp] theorem Block.mctx_setFlt (b : Block) (k : Nat) (v : Flt) (j : Nat) :
    (b.setFlt k v).mctx j = b.mctx j := rfl
@[simp] theorem Block.queue_setFlt (b : Block) (k : Nat) (v : Flt) (j : Nat) :
    (b.setFlt k v).queue j = b.queue j := rfl
@[simp] theorem Block.link_setFlt (b : Block) (k : Nat) (v : Flt) (j : Nat) :
    (b.setFlt k v).link j = b.link j := rfl
@[simp] theorem Block.fn_setFlt (b : Block) (k : Nat) (v : Flt) (j : Nat) :
    (b.setFlt k v).fn j = b.fn j := rfl
@[simp] theorem Block.lock_setFlt (b : Block) (k : Nat) (v : Flt) (j : Nat) :
    (b.setFlt k v).lock j = b.lock j := rfl
@[simp] theorem Block.mould_setFlt (b : Block) (k : Nat) (v : Flt) (j : Nat) :
    (b.setFlt k v).mould j = b.mould j := rfl
@[simp] theorem Block.bank_setFlt (b : Block) (k : Nat) (v : Flt) (j : Nat) :
    (b.setFlt k v).bank j = b.bank j := rfl
@[simp] theorem Block.clk_setFlt (b : Block) (k : Nat) (v : Flt) (j : Nat) :
    (b.setFlt k v).clk j = b.clk j := rfl
@[simp] theorem Block.dom_setFlt (b : Block) (k : Nat) (v : Flt) (j : Nat) :
    (b.setFlt k v).dom j = b.dom j := rfl

/-! ## setBank -/

@[simp] theorem Block.setBank_toNet (b : Block) (k : Nat) (v : Bank) :
    (b.setBank k v).toNet = b.toNet := rfl
@[simp] theorem Block.setBank_toTransport (b : Block) (k : Nat) (v : Bank) :
    (b.setBank k v).toTransport = b.toTransport := rfl
@[simp] theorem Block.setBank_toHostSide (b : Block) (k : Nat) (v : Bank) :
    (b.setBank k v).toHostSide = b.toHostSide := rfl
@[simp] theorem Block.setBank_toMouldSide (b : Block) (k : Nat) (v : Bank) :
    (b.setBank k v).toMouldSide = b.toMouldSide := rfl
@[simp] theorem Block.setBank_toMgmt (b : Block) (k : Nat) (v : Bank) :
    (b.setBank k v).toMgmt = b.toMgmt := rfl
@[simp] theorem Block.setBank_toPlatform (b : Block) (k : Nat) (v : Bank) :
    (b.setBank k v).toPlatform = b.toPlatform := rfl
@[simp] theorem Block.setBank_regionMask (b : Block) (k : Nat) (v : Bank) :
    (b.setBank k v).regionMask = b.regionMask := rfl
@[simp] theorem Block.setBank_clusterMask (b : Block) (k : Nat) (v : Bank) :
    (b.setBank k v).clusterMask = b.clusterMask := rfl
@[simp] theorem Block.setBank_spSh (b : Block) (k : Nat) (v : Bank) :
    (b.setBank k v).spSh = b.spSh := rfl
@[simp] theorem Block.setBank_spAct (b : Block) (k : Nat) (v : Bank) :
    (b.setBank k v).spAct = b.spAct := rfl
@[simp] theorem Block.setBank_quench (b : Block) (k : Nat) (v : Bank) :
    (b.setBank k v).quench = b.quench := rfl
@[simp] theorem Block.setBank_quenchCause (b : Block) (k : Nat) (v : Bank) :
    (b.setBank k v).quenchCause = b.quenchCause := rfl
@[simp] theorem Block.setBank_flt (b : Block) (k : Nat) (v : Bank) :
    (b.setBank k v).flt = b.flt := rfl
@[simp] theorem Block.setBank_react (b : Block) (k : Nat) (v : Bank) :
    (b.setBank k v).react = b.react := rfl
@[simp] theorem Block.setBank_reactSh (b : Block) (k : Nat) (v : Bank) :
    (b.setBank k v).reactSh = b.reactSh := rfl
@[simp] theorem Block.setBank_reactDue (b : Block) (k : Nat) (v : Bank) :
    (b.setBank k v).reactDue = b.reactDue := rfl
@[simp] theorem Block.setBank_reacts (b : Block) (k : Nat) (v : Bank) :
    (b.setBank k v).reacts = b.reacts := rfl
@[simp] theorem Block.setBank_fatalLow (b : Block) (k : Nat) (v : Bank) :
    (b.setBank k v).fatalLow = b.fatalLow := rfl
@[simp] theorem Block.setBank_regions (b : Block) (k : Nat) (v : Bank) :
    (b.setBank k v).regions = b.regions := rfl
@[simp] theorem Block.setBank_scrubPasses (b : Block) (k : Nat) (v : Bank) :
    (b.setBank k v).scrubPasses = b.scrubPasses := rfl
@[simp] theorem Block.setBank_carve (b : Block) (k : Nat) (v : Bank) :
    (b.setBank k v).carve = b.carve := rfl
@[simp] theorem Block.setBank_carveLost (b : Block) (k : Nat) (v : Bank) :
    (b.setBank k v).carveLost = b.carveLost := rfl
@[simp] theorem Block.setBank_carveFreeUsed (b : Block) (k : Nat) (v : Bank) :
    (b.setBank k v).carveFreeUsed = b.carveFreeUsed := rfl
@[simp] theorem Block.setBank_ladleLost (b : Block) (k : Nat) (v : Bank) :
    (b.setBank k v).ladleLost = b.ladleLost := rfl
@[simp] theorem Block.setBank_rowsUsed (b : Block) (k : Nat) (v : Bank) :
    (b.setBank k v).rowsUsed = b.rowsUsed := rfl
@[simp] theorem Block.setBank_banksRetired (b : Block) (k : Nat) (v : Bank) :
    (b.setBank k v).banksRetired = b.banksRetired := rfl
@[simp] theorem Block.setBank_degraded (b : Block) (k : Nat) (v : Bank) :
    (b.setBank k v).degraded = b.degraded := rfl
@[simp] theorem Block.setBank_counters (b : Block) (k : Nat) (v : Bank) :
    (b.setBank k v).counters = b.counters := rfl
@[simp] theorem Block.setBank_ctrEvent (b : Block) (k : Nat) (v : Bank) :
    (b.setBank k v).ctrEvent = b.ctrEvent := rfl
@[simp] theorem Block.setBank_bwWindow (b : Block) (k : Nat) (v : Bank) :
    (b.setBank k v).bwWindow = b.bwWindow := rfl
@[simp] theorem Block.setBank_bwNext (b : Block) (k : Nat) (v : Bank) :
    (b.setBank k v).bwNext = b.bwNext := rfl
@[simp] theorem Block.setBank_bwEnd (b : Block) (k : Nat) (v : Bank) :
    (b.setBank k v).bwEnd = b.bwEnd := rfl
@[simp] theorem Block.setBank_bwStepped (b : Block) (k : Nat) (v : Bank) :
    (b.setBank k v).bwStepped = b.bwStepped := rfl
@[simp] theorem Block.setBank_stagingBad (b : Block) (k : Nat) (v : Bank) :
    (b.setBank k v).stagingBad = b.stagingBad := rfl
@[simp] theorem Block.setBank_out (b : Block) (k : Nat) (v : Bank) :
    (b.setBank k v).out = b.out := rfl
@[simp] theorem Block.setBank_now (b : Block) (k : Nat) (v : Bank) :
    (b.setBank k v).now = b.now := rfl
@[simp] theorem Block.setBank_fresh (b : Block) (k : Nat) (v : Bank) :
    (b.setBank k v).fresh = b.fresh := rfl
@[simp] theorem Block.bank_setBank_self (b : Block) (k : Nat) (v : Bank) :
    (b.setBank k v).bank k = v := Tbl.get_set_self _ _ _ _
@[simp] theorem Block.bank_setBank_ne (b : Block) (k : Nat) (v : Bank) {j : Nat} (h : j ≠ k) :
    (b.setBank k v).bank j = b.bank j := Tbl.get_set_ne _ _ _ _ h
@[simp] theorem Block.port_setBank (b : Block) (k : Nat) (v : Bank) (j : Nat) :
    (b.setBank k v).port j = b.port j := rfl
@[simp] theorem Block.ctx_setBank (b : Block) (k : Nat) (v : Bank) (j : Nat) :
    (b.setBank k v).ctx j = b.ctx j := rfl
@[simp] theorem Block.pd_setBank (b : Block) (k : Nat) (v : Bank) (j : Nat) :
    (b.setBank k v).pd j = b.pd j := rfl
@[simp] theorem Block.ep_setBank (b : Block) (k : Nat) (v : Bank) (j : Nat) :
    (b.setBank k v).ep j = b.ep j := rfl
@[simp] theorem Block.reg_setBank (b : Block) (k : Nat) (v : Bank) (j : Nat) :
    (b.setBank k v).reg j = b.reg j := rfl
@[simp] theorem Block.mctx_setBank (b : Block) (k : Nat) (v : Bank) (j : Nat) :
    (b.setBank k v).mctx j = b.mctx j := rfl
@[simp] theorem Block.queue_setBank (b : Block) (k : Nat) (v : Bank) (j : Nat) :
    (b.setBank k v).queue j = b.queue j := rfl
@[simp] theorem Block.link_setBank (b : Block) (k : Nat) (v : Bank) (j : Nat) :
    (b.setBank k v).link j = b.link j := rfl
@[simp] theorem Block.fn_setBank (b : Block) (k : Nat) (v : Bank) (j : Nat) :
    (b.setBank k v).fn j = b.fn j := rfl
@[simp] theorem Block.lock_setBank (b : Block) (k : Nat) (v : Bank) (j : Nat) :
    (b.setBank k v).lock j = b.lock j := rfl
@[simp] theorem Block.mould_setBank (b : Block) (k : Nat) (v : Bank) (j : Nat) :
    (b.setBank k v).mould j = b.mould j := rfl
@[simp] theorem Block.fltOf_setBank (b : Block) (k : Nat) (v : Bank) (j : Nat) :
    (b.setBank k v).fltOf j = b.fltOf j := rfl
@[simp] theorem Block.clk_setBank (b : Block) (k : Nat) (v : Bank) (j : Nat) :
    (b.setBank k v).clk j = b.clk j := rfl
@[simp] theorem Block.dom_setBank (b : Block) (k : Nat) (v : Bank) (j : Nat) :
    (b.setBank k v).dom j = b.dom j := rfl

/-! ## setClk -/

@[simp] theorem Block.setClk_toNet (b : Block) (k : Nat) (v : Clk) :
    (b.setClk k v).toNet = b.toNet := rfl
@[simp] theorem Block.setClk_toTransport (b : Block) (k : Nat) (v : Clk) :
    (b.setClk k v).toTransport = b.toTransport := rfl
@[simp] theorem Block.setClk_toHostSide (b : Block) (k : Nat) (v : Clk) :
    (b.setClk k v).toHostSide = b.toHostSide := rfl
@[simp] theorem Block.setClk_toMouldSide (b : Block) (k : Nat) (v : Clk) :
    (b.setClk k v).toMouldSide = b.toMouldSide := rfl
@[simp] theorem Block.setClk_toMgmt (b : Block) (k : Nat) (v : Clk) :
    (b.setClk k v).toMgmt = b.toMgmt := rfl
@[simp] theorem Block.setClk_toService (b : Block) (k : Nat) (v : Clk) :
    (b.setClk k v).toService = b.toService := rfl
@[simp] theorem Block.setClk_phase (b : Block) (k : Nat) (v : Clk) :
    (b.setClk k v).phase = b.phase := rfl
@[simp] theorem Block.setClk_plls (b : Block) (k : Nat) (v : Clk) :
    (b.setClk k v).plls = b.plls := rfl
@[simp] theorem Block.setClk_clkoutHung (b : Block) (k : Nat) (v : Clk) :
    (b.setClk k v).clkoutHung = b.clkoutHung := rfl
@[simp] theorem Block.setClk_sosStopped (b : Block) (k : Nat) (v : Clk) :
    (b.setClk k v).sosStopped = b.sosStopped := rfl
@[simp] theorem Block.setClk_gov (b : Block) (k : Nat) (v : Clk) :
    (b.setClk k v).gov = b.gov := rfl
@[simp] theorem Block.setClk_time (b : Block) (k : Nat) (v : Clk) :
    (b.setClk k v).time = b.time := rfl
@[simp] theorem Block.setClk_pwr (b : Block) (k : Nat) (v : Clk) :
    (b.setClk k v).pwr = b.pwr := rfl
@[simp] theorem Block.setClk_bifCode (b : Block) (k : Nat) (v : Clk) :
    (b.setClk k v).bifCode = b.bifCode := rfl
@[simp] theorem Block.setClk_bifStrap (b : Block) (k : Nat) (v : Clk) :
    (b.setClk k v).bifStrap = b.bifStrap := rfl
@[simp] theorem Block.setClk_bootMode (b : Block) (k : Nat) (v : Clk) :
    (b.setClk k v).bootMode = b.bootMode := rfl
@[simp] theorem Block.setClk_testMode (b : Block) (k : Nat) (v : Clk) :
    (b.setClk k v).testMode = b.testMode := rfl
@[simp] theorem Block.setClk_resetCause (b : Block) (k : Nat) (v : Clk) :
    (b.setClk k v).resetCause = b.resetCause := rfl
@[simp] theorem Block.setClk_fromPowerOn (b : Block) (k : Nat) (v : Clk) :
    (b.setClk k v).fromPowerOn = b.fromPowerOn := rfl
@[simp] theorem Block.setClk_earlyResets (b : Block) (k : Nat) (v : Clk) :
    (b.setClk k v).earlyResets = b.earlyResets := rfl
@[simp] theorem Block.setClk_weakRows (b : Block) (k : Nat) (v : Clk) :
    (b.setClk k v).weakRows = b.weakRows := rfl
@[simp] theorem Block.setClk_luck (b : Block) (k : Nat) (v : Clk) :
    (b.setClk k v).luck = b.luck := rfl
@[simp] theorem Block.setClk_trstHigh (b : Block) (k : Nat) (v : Clk) :
    (b.setClk k v).trstHigh = b.trstHigh := rfl
@[simp] theorem Block.setClk_porstLow (b : Block) (k : Nat) (v : Clk) :
    (b.setClk k v).porstLow = b.porstLow := rfl
@[simp] theorem Block.setClk_railHold (b : Block) (k : Nat) (v : Clk) :
    (b.setClk k v).railHold = b.railHold := rfl
@[simp] theorem Block.setClk_out (b : Block) (k : Nat) (v : Clk) :
    (b.setClk k v).out = b.out := rfl
@[simp] theorem Block.setClk_now (b : Block) (k : Nat) (v : Clk) :
    (b.setClk k v).now = b.now := rfl
@[simp] theorem Block.setClk_fresh (b : Block) (k : Nat) (v : Clk) :
    (b.setClk k v).fresh = b.fresh := rfl
@[simp] theorem Block.clk_setClk_self (b : Block) (k : Nat) (v : Clk) :
    (b.setClk k v).clk k = v := Tbl.get_set_self _ _ _ _
@[simp] theorem Block.clk_setClk_ne (b : Block) (k : Nat) (v : Clk) {j : Nat} (h : j ≠ k) :
    (b.setClk k v).clk j = b.clk j := Tbl.get_set_ne _ _ _ _ h
@[simp] theorem Block.port_setClk (b : Block) (k : Nat) (v : Clk) (j : Nat) :
    (b.setClk k v).port j = b.port j := rfl
@[simp] theorem Block.ctx_setClk (b : Block) (k : Nat) (v : Clk) (j : Nat) :
    (b.setClk k v).ctx j = b.ctx j := rfl
@[simp] theorem Block.pd_setClk (b : Block) (k : Nat) (v : Clk) (j : Nat) :
    (b.setClk k v).pd j = b.pd j := rfl
@[simp] theorem Block.ep_setClk (b : Block) (k : Nat) (v : Clk) (j : Nat) :
    (b.setClk k v).ep j = b.ep j := rfl
@[simp] theorem Block.reg_setClk (b : Block) (k : Nat) (v : Clk) (j : Nat) :
    (b.setClk k v).reg j = b.reg j := rfl
@[simp] theorem Block.mctx_setClk (b : Block) (k : Nat) (v : Clk) (j : Nat) :
    (b.setClk k v).mctx j = b.mctx j := rfl
@[simp] theorem Block.queue_setClk (b : Block) (k : Nat) (v : Clk) (j : Nat) :
    (b.setClk k v).queue j = b.queue j := rfl
@[simp] theorem Block.link_setClk (b : Block) (k : Nat) (v : Clk) (j : Nat) :
    (b.setClk k v).link j = b.link j := rfl
@[simp] theorem Block.fn_setClk (b : Block) (k : Nat) (v : Clk) (j : Nat) :
    (b.setClk k v).fn j = b.fn j := rfl
@[simp] theorem Block.lock_setClk (b : Block) (k : Nat) (v : Clk) (j : Nat) :
    (b.setClk k v).lock j = b.lock j := rfl
@[simp] theorem Block.mould_setClk (b : Block) (k : Nat) (v : Clk) (j : Nat) :
    (b.setClk k v).mould j = b.mould j := rfl
@[simp] theorem Block.fltOf_setClk (b : Block) (k : Nat) (v : Clk) (j : Nat) :
    (b.setClk k v).fltOf j = b.fltOf j := rfl
@[simp] theorem Block.bank_setClk (b : Block) (k : Nat) (v : Clk) (j : Nat) :
    (b.setClk k v).bank j = b.bank j := rfl
@[simp] theorem Block.dom_setClk (b : Block) (k : Nat) (v : Clk) (j : Nat) :
    (b.setClk k v).dom j = b.dom j := rfl

/-! ## setDom -/

@[simp] theorem Block.setDom_toNet (b : Block) (k : Nat) (v : PwrDom) :
    (b.setDom k v).toNet = b.toNet := rfl
@[simp] theorem Block.setDom_toTransport (b : Block) (k : Nat) (v : PwrDom) :
    (b.setDom k v).toTransport = b.toTransport := rfl
@[simp] theorem Block.setDom_toHostSide (b : Block) (k : Nat) (v : PwrDom) :
    (b.setDom k v).toHostSide = b.toHostSide := rfl
@[simp] theorem Block.setDom_toMouldSide (b : Block) (k : Nat) (v : PwrDom) :
    (b.setDom k v).toMouldSide = b.toMouldSide := rfl
@[simp] theorem Block.setDom_toMgmt (b : Block) (k : Nat) (v : PwrDom) :
    (b.setDom k v).toMgmt = b.toMgmt := rfl
@[simp] theorem Block.setDom_toService (b : Block) (k : Nat) (v : PwrDom) :
    (b.setDom k v).toService = b.toService := rfl
@[simp] theorem Block.setDom_phase (b : Block) (k : Nat) (v : PwrDom) :
    (b.setDom k v).phase = b.phase := rfl
@[simp] theorem Block.setDom_plls (b : Block) (k : Nat) (v : PwrDom) :
    (b.setDom k v).plls = b.plls := rfl
@[simp] theorem Block.setDom_clkoutHung (b : Block) (k : Nat) (v : PwrDom) :
    (b.setDom k v).clkoutHung = b.clkoutHung := rfl
@[simp] theorem Block.setDom_clks (b : Block) (k : Nat) (v : PwrDom) :
    (b.setDom k v).clks = b.clks := rfl
@[simp] theorem Block.setDom_sosStopped (b : Block) (k : Nat) (v : PwrDom) :
    (b.setDom k v).sosStopped = b.sosStopped := rfl
@[simp] theorem Block.setDom_gov (b : Block) (k : Nat) (v : PwrDom) :
    (b.setDom k v).gov = b.gov := rfl
@[simp] theorem Block.setDom_time (b : Block) (k : Nat) (v : PwrDom) :
    (b.setDom k v).time = b.time := rfl
@[simp] theorem Block.setDom_bifCode (b : Block) (k : Nat) (v : PwrDom) :
    (b.setDom k v).bifCode = b.bifCode := rfl
@[simp] theorem Block.setDom_bifStrap (b : Block) (k : Nat) (v : PwrDom) :
    (b.setDom k v).bifStrap = b.bifStrap := rfl
@[simp] theorem Block.setDom_bootMode (b : Block) (k : Nat) (v : PwrDom) :
    (b.setDom k v).bootMode = b.bootMode := rfl
@[simp] theorem Block.setDom_testMode (b : Block) (k : Nat) (v : PwrDom) :
    (b.setDom k v).testMode = b.testMode := rfl
@[simp] theorem Block.setDom_resetCause (b : Block) (k : Nat) (v : PwrDom) :
    (b.setDom k v).resetCause = b.resetCause := rfl
@[simp] theorem Block.setDom_fromPowerOn (b : Block) (k : Nat) (v : PwrDom) :
    (b.setDom k v).fromPowerOn = b.fromPowerOn := rfl
@[simp] theorem Block.setDom_earlyResets (b : Block) (k : Nat) (v : PwrDom) :
    (b.setDom k v).earlyResets = b.earlyResets := rfl
@[simp] theorem Block.setDom_weakRows (b : Block) (k : Nat) (v : PwrDom) :
    (b.setDom k v).weakRows = b.weakRows := rfl
@[simp] theorem Block.setDom_luck (b : Block) (k : Nat) (v : PwrDom) :
    (b.setDom k v).luck = b.luck := rfl
@[simp] theorem Block.setDom_trstHigh (b : Block) (k : Nat) (v : PwrDom) :
    (b.setDom k v).trstHigh = b.trstHigh := rfl
@[simp] theorem Block.setDom_porstLow (b : Block) (k : Nat) (v : PwrDom) :
    (b.setDom k v).porstLow = b.porstLow := rfl
@[simp] theorem Block.setDom_railHold (b : Block) (k : Nat) (v : PwrDom) :
    (b.setDom k v).railHold = b.railHold := rfl
@[simp] theorem Block.setDom_out (b : Block) (k : Nat) (v : PwrDom) :
    (b.setDom k v).out = b.out := rfl
@[simp] theorem Block.setDom_now (b : Block) (k : Nat) (v : PwrDom) :
    (b.setDom k v).now = b.now := rfl
@[simp] theorem Block.setDom_fresh (b : Block) (k : Nat) (v : PwrDom) :
    (b.setDom k v).fresh = b.fresh := rfl
@[simp] theorem Block.dom_setDom_self (b : Block) (k : Nat) (v : PwrDom) :
    (b.setDom k v).dom k = v := Tbl.get_set_self _ _ _ _
@[simp] theorem Block.dom_setDom_ne (b : Block) (k : Nat) (v : PwrDom) {j : Nat} (h : j ≠ k) :
    (b.setDom k v).dom j = b.dom j := Tbl.get_set_ne _ _ _ _ h
@[simp] theorem Block.port_setDom (b : Block) (k : Nat) (v : PwrDom) (j : Nat) :
    (b.setDom k v).port j = b.port j := rfl
@[simp] theorem Block.ctx_setDom (b : Block) (k : Nat) (v : PwrDom) (j : Nat) :
    (b.setDom k v).ctx j = b.ctx j := rfl
@[simp] theorem Block.pd_setDom (b : Block) (k : Nat) (v : PwrDom) (j : Nat) :
    (b.setDom k v).pd j = b.pd j := rfl
@[simp] theorem Block.ep_setDom (b : Block) (k : Nat) (v : PwrDom) (j : Nat) :
    (b.setDom k v).ep j = b.ep j := rfl
@[simp] theorem Block.reg_setDom (b : Block) (k : Nat) (v : PwrDom) (j : Nat) :
    (b.setDom k v).reg j = b.reg j := rfl
@[simp] theorem Block.mctx_setDom (b : Block) (k : Nat) (v : PwrDom) (j : Nat) :
    (b.setDom k v).mctx j = b.mctx j := rfl
@[simp] theorem Block.queue_setDom (b : Block) (k : Nat) (v : PwrDom) (j : Nat) :
    (b.setDom k v).queue j = b.queue j := rfl
@[simp] theorem Block.link_setDom (b : Block) (k : Nat) (v : PwrDom) (j : Nat) :
    (b.setDom k v).link j = b.link j := rfl
@[simp] theorem Block.fn_setDom (b : Block) (k : Nat) (v : PwrDom) (j : Nat) :
    (b.setDom k v).fn j = b.fn j := rfl
@[simp] theorem Block.lock_setDom (b : Block) (k : Nat) (v : PwrDom) (j : Nat) :
    (b.setDom k v).lock j = b.lock j := rfl
@[simp] theorem Block.mould_setDom (b : Block) (k : Nat) (v : PwrDom) (j : Nat) :
    (b.setDom k v).mould j = b.mould j := rfl
@[simp] theorem Block.fltOf_setDom (b : Block) (k : Nat) (v : PwrDom) (j : Nat) :
    (b.setDom k v).fltOf j = b.fltOf j := rfl
@[simp] theorem Block.bank_setDom (b : Block) (k : Nat) (v : PwrDom) (j : Nat) :
    (b.setDom k v).bank j = b.bank j := rfl
@[simp] theorem Block.clk_setDom (b : Block) (k : Nat) (v : PwrDom) (j : Nat) :
    (b.setDom k v).clk j = b.clk j := rfl

@[simp] theorem Block.modPort_eq (b : Block) (k : Nat) (f : Port → Port) :
    b.modPort k f = b.setPort k (f (b.port k)) := rfl
@[simp] theorem Block.modCtx_eq (b : Block) (k : Nat) (f : Ctx → Ctx) :
    b.modCtx k f = b.setCtx k (f (b.ctx k)) := rfl
@[simp] theorem Block.modEp_eq (b : Block) (k : Nat) (f : Ep → Ep) :
    b.modEp k f = b.setEp k (f (b.ep k)) := rfl
@[simp] theorem Block.modReg_eq (b : Block) (k : Nat) (f : Reg → Reg) :
    b.modReg k f = b.setReg k (f (b.reg k)) := rfl
@[simp] theorem Block.modMctx_eq (b : Block) (k : Nat) (f : Mctx → Mctx) :
    b.modMctx k f = b.setMctx k (f (b.mctx k)) := rfl
@[simp] theorem Block.modQueue_eq (b : Block) (k : Nat) (f : Queue → Queue) :
    b.modQueue k f = b.setQueue k (f (b.queue k)) := rfl
@[simp] theorem Block.modLink_eq (b : Block) (k : Nat) (f : HostLink → HostLink) :
    b.modLink k f = b.setLink k (f (b.link k)) := rfl
@[simp] theorem Block.modFn_eq (b : Block) (k : Nat) (f : Fn → Fn) :
    b.modFn k f = b.setFn k (f (b.fn k)) := rfl
@[simp] theorem Block.modMould_eq (b : Block) (k : Nat) (f : Mould → Mould) :
    b.modMould k f = b.setMould k (f (b.mould k)) := rfl
@[simp] theorem Block.modClk_eq (b : Block) (k : Nat) (f : Clk → Clk) :
    b.modClk k f = b.setClk k (f (b.clk k)) := rfl
@[simp] theorem Block.modDom_eq (b : Block) (k : Nat) (f : PwrDom → PwrDom) :
    b.modDom k f = b.setDom k (f (b.dom k)) := rfl

/-! ## What is driven outward, and free choices -/

@[simp] theorem Block.emit_toNet (b : Block) (o : Out) : (b.emit o).toNet = b.toNet := rfl
@[simp] theorem Block.emit_toTransport (b : Block) (o : Out) : (b.emit o).toTransport = b.toTransport := rfl
@[simp] theorem Block.emit_toHostSide (b : Block) (o : Out) : (b.emit o).toHostSide = b.toHostSide := rfl
@[simp] theorem Block.emit_toMouldSide (b : Block) (o : Out) : (b.emit o).toMouldSide = b.toMouldSide := rfl
@[simp] theorem Block.emit_toMgmt (b : Block) (o : Out) : (b.emit o).toMgmt = b.toMgmt := rfl
@[simp] theorem Block.emit_toService (b : Block) (o : Out) : (b.emit o).toService = b.toService := rfl
@[simp] theorem Block.emit_toPlatform (b : Block) (o : Out) : (b.emit o).toPlatform = b.toPlatform := rfl
@[simp] theorem Block.emit_now (b : Block) (o : Out) : (b.emit o).now = b.now := rfl
@[simp] theorem Block.emit_fresh (b : Block) (o : Out) : (b.emit o).fresh = b.fresh := rfl
@[simp] theorem Block.emit_out (b : Block) (o : Out) : (b.emit o).out = b.out ++ [o] := rfl
@[simp] theorem Block.port_emit (b : Block) (o : Out) (j : Nat) : (b.emit o).port j = b.port j := rfl
@[simp] theorem Block.ctx_emit (b : Block) (o : Out) (j : Nat) : (b.emit o).ctx j = b.ctx j := rfl
@[simp] theorem Block.pd_emit (b : Block) (o : Out) (j : Nat) : (b.emit o).pd j = b.pd j := rfl
@[simp] theorem Block.ep_emit (b : Block) (o : Out) (j : Nat) : (b.emit o).ep j = b.ep j := rfl
@[simp] theorem Block.reg_emit (b : Block) (o : Out) (j : Nat) : (b.emit o).reg j = b.reg j := rfl
@[simp] theorem Block.mctx_emit (b : Block) (o : Out) (j : Nat) : (b.emit o).mctx j = b.mctx j := rfl
@[simp] theorem Block.queue_emit (b : Block) (o : Out) (j : Nat) : (b.emit o).queue j = b.queue j := rfl
@[simp] theorem Block.link_emit (b : Block) (o : Out) (j : Nat) : (b.emit o).link j = b.link j := rfl
@[simp] theorem Block.fn_emit (b : Block) (o : Out) (j : Nat) : (b.emit o).fn j = b.fn j := rfl
@[simp] theorem Block.lock_emit (b : Block) (o : Out) (j : Nat) : (b.emit o).lock j = b.lock j := rfl
@[simp] theorem Block.mould_emit (b : Block) (o : Out) (j : Nat) : (b.emit o).mould j = b.mould j := rfl
@[simp] theorem Block.fltOf_emit (b : Block) (o : Out) (j : Nat) : (b.emit o).fltOf j = b.fltOf j := rfl
@[simp] theorem Block.bank_emit (b : Block) (o : Out) (j : Nat) : (b.emit o).bank j = b.bank j := rfl
@[simp] theorem Block.clk_emit (b : Block) (o : Out) (j : Nat) : (b.emit o).clk j = b.clk j := rfl
@[simp] theorem Block.dom_emit (b : Block) (o : Out) (j : Nat) : (b.emit o).dom j = b.dom j := rfl
@[simp] theorem Block.choose_toNet (b : Block) (n : Nat) : (b.choose n).2.toNet = b.toNet := rfl
@[simp] theorem Block.choose_toTransport (b : Block) (n : Nat) : (b.choose n).2.toTransport = b.toTransport := rfl
@[simp] theorem Block.choose_toHostSide (b : Block) (n : Nat) : (b.choose n).2.toHostSide = b.toHostSide := rfl
@[simp] theorem Block.choose_toMouldSide (b : Block) (n : Nat) : (b.choose n).2.toMouldSide = b.toMouldSide := rfl
@[simp] theorem Block.choose_toMgmt (b : Block) (n : Nat) : (b.choose n).2.toMgmt = b.toMgmt := rfl
@[simp] theorem Block.choose_toService (b : Block) (n : Nat) : (b.choose n).2.toService = b.toService := rfl
@[simp] theorem Block.choose_toPlatform (b : Block) (n : Nat) : (b.choose n).2.toPlatform = b.toPlatform := rfl
@[simp] theorem Block.choose_now (b : Block) (n : Nat) : (b.choose n).2.now = b.now := rfl
@[simp] theorem Block.choose_out (b : Block) (n : Nat) : (b.choose n).2.out = b.out := rfl
@[simp] theorem Block.choose_fresh (b : Block) (n : Nat) : (b.choose n).2.fresh = b.fresh + 1 := rfl
@[simp] theorem Block.port_choose (b : Block) (n j : Nat) :
    (b.choose n).2.port j = b.port j := rfl
@[simp] theorem Block.ctx_choose (b : Block) (n j : Nat) :
    (b.choose n).2.ctx j = b.ctx j := rfl
@[simp] theorem Block.pd_choose (b : Block) (n j : Nat) :
    (b.choose n).2.pd j = b.pd j := rfl
@[simp] theorem Block.ep_choose (b : Block) (n j : Nat) :
    (b.choose n).2.ep j = b.ep j := rfl
@[simp] theorem Block.reg_choose (b : Block) (n j : Nat) :
    (b.choose n).2.reg j = b.reg j := rfl
@[simp] theorem Block.mctx_choose (b : Block) (n j : Nat) :
    (b.choose n).2.mctx j = b.mctx j := rfl
@[simp] theorem Block.queue_choose (b : Block) (n j : Nat) :
    (b.choose n).2.queue j = b.queue j := rfl
@[simp] theorem Block.link_choose (b : Block) (n j : Nat) :
    (b.choose n).2.link j = b.link j := rfl
@[simp] theorem Block.fn_choose (b : Block) (n j : Nat) :
    (b.choose n).2.fn j = b.fn j := rfl
@[simp] theorem Block.lock_choose (b : Block) (n j : Nat) :
    (b.choose n).2.lock j = b.lock j := rfl
@[simp] theorem Block.mould_choose (b : Block) (n j : Nat) :
    (b.choose n).2.mould j = b.mould j := rfl
@[simp] theorem Block.fltOf_choose (b : Block) (n j : Nat) :
    (b.choose n).2.fltOf j = b.fltOf j := rfl
@[simp] theorem Block.bank_choose (b : Block) (n j : Nat) :
    (b.choose n).2.bank j = b.bank j := rfl
@[simp] theorem Block.clk_choose (b : Block) (n j : Nat) :
    (b.choose n).2.clk j = b.clk j := rfl
@[simp] theorem Block.dom_choose (b : Block) (n j : Nat) :
    (b.choose n).2.dom j = b.dom j := rfl

/-! ## Objects -/

@[simp] theorem Block.setObj_toNet (b : Block) (i j v : Nat) :
    (b.setObj i j v).toNet = b.toNet := rfl
@[simp] theorem Block.setObj_toTransport (b : Block) (i j v : Nat) :
    (b.setObj i j v).toTransport = b.toTransport := rfl
@[simp] theorem Block.setObj_toHostSide (b : Block) (i j v : Nat) :
    (b.setObj i j v).toHostSide = b.toHostSide := rfl
@[simp] theorem Block.setObj_toMouldSide (b : Block) (i j v : Nat) :
    (b.setObj i j v).toMouldSide = b.toMouldSide := rfl
@[simp] theorem Block.setObj_toService (b : Block) (i j v : Nat) :
    (b.setObj i j v).toService = b.toService := rfl
@[simp] theorem Block.setObj_toPlatform (b : Block) (i j v : Nat) :
    (b.setObj i j v).toPlatform = b.toPlatform := rfl
@[simp] theorem Block.setObj_idpQ (b : Block) (i j v : Nat) :
    (b.setObj i j v).idpQ = b.idpQ := rfl
@[simp] theorem Block.setObj_seqs (b : Block) (i j v : Nat) :
    (b.setObj i j v).seqs = b.seqs := rfl
@[simp] theorem Block.setObj_xfers (b : Block) (i j v : Nat) :
    (b.setObj i j v).xfers = b.xfers := rfl
@[simp] theorem Block.setObj_loadWait (b : Block) (i j v : Nat) :
    (b.setObj i j v).loadWait = b.loadWait := rfl
@[simp] theorem Block.setObj_attest (b : Block) (i j v : Nat) :
    (b.setObj i j v).attest = b.attest := rfl
@[simp] theorem Block.setObj_lower (b : Block) (i j v : Nat) :
    (b.setObj i j v).lower = b.lower := rfl
@[simp] theorem Block.setObj_loaded (b : Block) (i j v : Nat) :
    (b.setObj i j v).loaded = b.loaded := rfl
@[simp] theorem Block.setObj_lcResult (b : Block) (i j v : Nat) :
    (b.setObj i j v).lcResult = b.lcResult := rfl
@[simp] theorem Block.setObj_fwState (b : Block) (i j v : Nat) :
    (b.setObj i j v).fwState = b.fwState := rfl
@[simp] theorem Block.setObj_fwStaged (b : Block) (i j v : Nat) :
    (b.setObj i j v).fwStaged = b.fwStaged := rfl
@[simp] theorem Block.setObj_lcReset (b : Block) (i j v : Nat) :
    (b.setObj i j v).lcReset = b.lcReset := rfl
@[simp] theorem Block.setObj_rstAsked (b : Block) (i j v : Nat) :
    (b.setObj i j v).rstAsked = b.rstAsked := rfl
@[simp] theorem Block.setObj_plcaId (b : Block) (i j v : Nat) :
    (b.setObj i j v).plcaId = b.plcaId := rfl
@[simp] theorem Block.setObj_plcaCount (b : Block) (i j v : Nat) :
    (b.setObj i j v).plcaCount = b.plcaCount := rfl
@[simp] theorem Block.setObj_plcaDue (b : Block) (i j v : Nat) :
    (b.setObj i j v).plcaDue = b.plcaDue := rfl
@[simp] theorem Block.setObj_i3cAddr (b : Block) (i j v : Nat) :
    (b.setObj i j v).i3cAddr = b.i3cAddr := rfl
@[simp] theorem Block.setObj_mctpEid (b : Block) (i j v : Nat) :
    (b.setObj i j v).mctpEid = b.mctpEid := rfl
@[simp] theorem Block.setObj_mnetWait (b : Block) (i j v : Nat) :
    (b.setObj i j v).mnetWait = b.mnetWait := rfl
@[simp] theorem Block.setObj_defaulted (b : Block) (i j v : Nat) :
    (b.setObj i j v).defaulted = b.defaulted := rfl
@[simp] theorem Block.setObj_defaultedLast (b : Block) (i j v : Nat) :
    (b.setObj i j v).defaultedLast = b.defaultedLast := rfl
@[simp] theorem Block.setObj_fuses (b : Block) (i j v : Nat) :
    (b.setObj i j v).fuses = b.fuses := rfl
@[simp] theorem Block.setObj_vddFuse (b : Block) (i j v : Nat) :
    (b.setObj i j v).vddFuse = b.vddFuse := rfl
@[simp] theorem Block.setObj_flash (b : Block) (i j v : Nat) :
    (b.setObj i j v).flash = b.flash := rfl
@[simp] theorem Block.setObj_out (b : Block) (i j v : Nat) :
    (b.setObj i j v).out = b.out := rfl
@[simp] theorem Block.setObj_now (b : Block) (i j v : Nat) :
    (b.setObj i j v).now = b.now := rfl
@[simp] theorem Block.setObj_fresh (b : Block) (i j v : Nat) :
    (b.setObj i j v).fresh = b.fresh := rfl

/-! ## Counters -/

theorem Block.count_eq (b : Block) (c n : Nat) :
    b.count c n = b ∨ ∃ t, b.count c n = { b with counters := t } := by
  unfold Block.count
  split
  · exact .inl rfl
  · exact .inr ⟨_, rfl⟩

@[simp] theorem Block.count_toNet (b : Block) (c n : Nat) : (b.count c n).toNet = b.toNet := by
  unfold Block.count; split <;> rfl
@[simp] theorem Block.count_toTransport (b : Block) (c n : Nat) : (b.count c n).toTransport = b.toTransport := by
  unfold Block.count; split <;> rfl
@[simp] theorem Block.count_toHostSide (b : Block) (c n : Nat) : (b.count c n).toHostSide = b.toHostSide := by
  unfold Block.count; split <;> rfl
@[simp] theorem Block.count_toMouldSide (b : Block) (c n : Nat) : (b.count c n).toMouldSide = b.toMouldSide := by
  unfold Block.count; split <;> rfl
@[simp] theorem Block.count_toMgmt (b : Block) (c n : Nat) : (b.count c n).toMgmt = b.toMgmt := by
  unfold Block.count; split <;> rfl
@[simp] theorem Block.count_toPlatform (b : Block) (c n : Nat) : (b.count c n).toPlatform = b.toPlatform := by
  unfold Block.count; split <;> rfl
@[simp] theorem Block.count_regionMask (b : Block) (c n : Nat) : (b.count c n).regionMask = b.regionMask := by
  unfold Block.count; split <;> rfl
@[simp] theorem Block.count_clusterMask (b : Block) (c n : Nat) : (b.count c n).clusterMask = b.clusterMask := by
  unfold Block.count; split <;> rfl
@[simp] theorem Block.count_spSh (b : Block) (c n : Nat) : (b.count c n).spSh = b.spSh := by
  unfold Block.count; split <;> rfl
@[simp] theorem Block.count_spAct (b : Block) (c n : Nat) : (b.count c n).spAct = b.spAct := by
  unfold Block.count; split <;> rfl
@[simp] theorem Block.count_quench (b : Block) (c n : Nat) : (b.count c n).quench = b.quench := by
  unfold Block.count; split <;> rfl
@[simp] theorem Block.count_quenchCause (b : Block) (c n : Nat) : (b.count c n).quenchCause = b.quenchCause := by
  unfold Block.count; split <;> rfl
@[simp] theorem Block.count_flt (b : Block) (c n : Nat) : (b.count c n).flt = b.flt := by
  unfold Block.count; split <;> rfl
@[simp] theorem Block.count_react (b : Block) (c n : Nat) : (b.count c n).react = b.react := by
  unfold Block.count; split <;> rfl
@[simp] theorem Block.count_reactSh (b : Block) (c n : Nat) : (b.count c n).reactSh = b.reactSh := by
  unfold Block.count; split <;> rfl
@[simp] theorem Block.count_reactDue (b : Block) (c n : Nat) : (b.count c n).reactDue = b.reactDue := by
  unfold Block.count; split <;> rfl
@[simp] theorem Block.count_reacts (b : Block) (c n : Nat) : (b.count c n).reacts = b.reacts := by
  unfold Block.count; split <;> rfl
@[simp] theorem Block.count_fatalLow (b : Block) (c n : Nat) : (b.count c n).fatalLow = b.fatalLow := by
  unfold Block.count; split <;> rfl
@[simp] theorem Block.count_regions (b : Block) (c n : Nat) : (b.count c n).regions = b.regions := by
  unfold Block.count; split <;> rfl
@[simp] theorem Block.count_banks (b : Block) (c n : Nat) : (b.count c n).banks = b.banks := by
  unfold Block.count; split <;> rfl
@[simp] theorem Block.count_scrubPasses (b : Block) (c n : Nat) : (b.count c n).scrubPasses = b.scrubPasses := by
  unfold Block.count; split <;> rfl
@[simp] theorem Block.count_carve (b : Block) (c n : Nat) : (b.count c n).carve = b.carve := by
  unfold Block.count; split <;> rfl
@[simp] theorem Block.count_carveLost (b : Block) (c n : Nat) : (b.count c n).carveLost = b.carveLost := by
  unfold Block.count; split <;> rfl
@[simp] theorem Block.count_carveFreeUsed (b : Block) (c n : Nat) : (b.count c n).carveFreeUsed = b.carveFreeUsed := by
  unfold Block.count; split <;> rfl
@[simp] theorem Block.count_ladleLost (b : Block) (c n : Nat) : (b.count c n).ladleLost = b.ladleLost := by
  unfold Block.count; split <;> rfl
@[simp] theorem Block.count_rowsUsed (b : Block) (c n : Nat) : (b.count c n).rowsUsed = b.rowsUsed := by
  unfold Block.count; split <;> rfl
@[simp] theorem Block.count_banksRetired (b : Block) (c n : Nat) : (b.count c n).banksRetired = b.banksRetired := by
  unfold Block.count; split <;> rfl
@[simp] theorem Block.count_degraded (b : Block) (c n : Nat) : (b.count c n).degraded = b.degraded := by
  unfold Block.count; split <;> rfl
@[simp] theorem Block.count_ctrEvent (b : Block) (c n : Nat) : (b.count c n).ctrEvent = b.ctrEvent := by
  unfold Block.count; split <;> rfl
@[simp] theorem Block.count_bwWindow (b : Block) (c n : Nat) : (b.count c n).bwWindow = b.bwWindow := by
  unfold Block.count; split <;> rfl
@[simp] theorem Block.count_bwNext (b : Block) (c n : Nat) : (b.count c n).bwNext = b.bwNext := by
  unfold Block.count; split <;> rfl
@[simp] theorem Block.count_bwEnd (b : Block) (c n : Nat) : (b.count c n).bwEnd = b.bwEnd := by
  unfold Block.count; split <;> rfl
@[simp] theorem Block.count_bwStepped (b : Block) (c n : Nat) : (b.count c n).bwStepped = b.bwStepped := by
  unfold Block.count; split <;> rfl
@[simp] theorem Block.count_stagingBad (b : Block) (c n : Nat) : (b.count c n).stagingBad = b.stagingBad := by
  unfold Block.count; split <;> rfl
@[simp] theorem Block.count_out (b : Block) (c n : Nat) : (b.count c n).out = b.out := by
  unfold Block.count; split <;> rfl
@[simp] theorem Block.count_now (b : Block) (c n : Nat) : (b.count c n).now = b.now := by
  unfold Block.count; split <;> rfl
@[simp] theorem Block.count_fresh (b : Block) (c n : Nat) : (b.count c n).fresh = b.fresh := by
  unfold Block.count; split <;> rfl
@[simp] theorem Block.port_count (b : Block) (c n : Nat) (j : Nat) : (b.count c n).port j = b.port j := by
  unfold Block.count; split <;> rfl
@[simp] theorem Block.ctx_count (b : Block) (c n : Nat) (j : Nat) : (b.count c n).ctx j = b.ctx j := by
  unfold Block.count; split <;> rfl
@[simp] theorem Block.pd_count (b : Block) (c n : Nat) (j : Nat) : (b.count c n).pd j = b.pd j := by
  unfold Block.count; split <;> rfl
@[simp] theorem Block.ep_count (b : Block) (c n : Nat) (j : Nat) : (b.count c n).ep j = b.ep j := by
  unfold Block.count; split <;> rfl
@[simp] theorem Block.reg_count (b : Block) (c n : Nat) (j : Nat) : (b.count c n).reg j = b.reg j := by
  unfold Block.count; split <;> rfl
@[simp] theorem Block.mctx_count (b : Block) (c n : Nat) (j : Nat) : (b.count c n).mctx j = b.mctx j := by
  unfold Block.count; split <;> rfl
@[simp] theorem Block.queue_count (b : Block) (c n : Nat) (j : Nat) : (b.count c n).queue j = b.queue j := by
  unfold Block.count; split <;> rfl
@[simp] theorem Block.link_count (b : Block) (c n : Nat) (j : Nat) : (b.count c n).link j = b.link j := by
  unfold Block.count; split <;> rfl
@[simp] theorem Block.fn_count (b : Block) (c n : Nat) (j : Nat) : (b.count c n).fn j = b.fn j := by
  unfold Block.count; split <;> rfl
@[simp] theorem Block.lock_count (b : Block) (c n : Nat) (j : Nat) : (b.count c n).lock j = b.lock j := by
  unfold Block.count; split <;> rfl
@[simp] theorem Block.mould_count (b : Block) (c n : Nat) (j : Nat) : (b.count c n).mould j = b.mould j := by
  unfold Block.count; split <;> rfl
@[simp] theorem Block.fltOf_count (b : Block) (c n : Nat) (j : Nat) : (b.count c n).fltOf j = b.fltOf j := by
  unfold Block.count; split <;> rfl
@[simp] theorem Block.bank_count (b : Block) (c n : Nat) (j : Nat) : (b.count c n).bank j = b.bank j := by
  unfold Block.count; split <;> rfl
@[simp] theorem Block.clk_count (b : Block) (c n : Nat) (j : Nat) : (b.count c n).clk j = b.clk j := by
  unfold Block.count; split <;> rfl
@[simp] theorem Block.dom_count (b : Block) (c n : Nat) (j : Nat) : (b.count c n).dom j = b.dom j := by
  unfold Block.count; split <;> rfl
@[simp] theorem Block.counter_count_self (b : Block) (c n : Nat) :
    (b.count c n).counter c = if b.quench then b.counter c else min (b.counter c + n) counterMax := by
  unfold Block.count Block.counter
  split
  · rfl
  · exact Tbl.get_set_self _ _ _ _
@[simp] theorem Block.counter_count_ne (b : Block) {c c' : Nat} (n : Nat) (h : c' ≠ c) :
    (b.count c n).counter c' = b.counter c' := by
  unfold Block.count Block.counter
  split
  · rfl
  · exact Tbl.get_set_ne _ _ _ _ h

end Sys2Proof.Machine
end

