-- ==== Sys2Proof/Laws/Reactions.lean ====
section
/-! SUPPORT. What follows from a command within its step (`settle`) where nothing is left to act, and the
outcomes that `run` and `runR` make. -/

namespace Sys2Proof.Machine

theorem Block.drain_none {b : Block} (hr : b.reacts = []) (hl : b.lostPriv = []) (n : Nat) :
    b.drain n = b := by
  cases n with
  | zero => rfl
  | succ n => simp only [Block.drain, hr, hl]

/-- A quiet block has nothing that follows. -/
theorem Block.settle_quiet {b : Block} (h : b.quiet) : b.settle = b := by
  obtain ⟨h1, h2, h3, h4, h5, h6, h7, h8, h9⟩ := h
  have hl : b.loadWait.all (fun w => decide (w.1 < pauseKey)) = true := by
    simpa only [List.all_eq_true, decide_eq_true_eq] using h8
  simp only [Block.settle, Block.drain_none h1 h2, h3, h4, h5, h6, h7, hl, h9, List.isEmpty_nil,
    Bool.false_and, Bool.false_eq_true, if_true, if_false]

theorem runR_quiet (f : Block → Block) (s : State) (h : (f s.toBlock).quiet) :
    runR f s = .next { s with toBlock := f s.toBlock } := by
  simp only [runR, Block.settle_quiet h]

/-- A command that goes on leaves the queue of commands as it is. -/
theorem run_pending {f : Block → Block} {s t : State} (h : run f s = .next t) :
    t.pending = s.pending := by
  cases h; rfl

theorem runR_pending {f : Block → Block} {s t : State} (h : runR f s = .next t) :
    t.pending = s.pending := by
  cases h; rfl

/-- An event of a type that nobody has enabled changes nothing. -/
theorem Block.event_unheard {b : Block} {fid t : Nat} (h : b.evtOn fid t = false) (body : Bytes) :
    b.event fid t body = b := by
  simp [Block.event, h]

theorem Block.eventAll_unheard {b : Block} {t : Nat} (h : b.unheard t) (body : Bytes) :
    b.eventAll t body = b := by
  unfold Block.eventAll
  have : ∀ l : List Nat, (∀ x ∈ l, b.evtOn x t = false) →
      l.foldl (fun b fid => b.event fid t body) b = b := by
    intro l
    induction l with
    | nil => intro _; rfl
    | cons a l ih =>
      intro hl
      simp only [List.foldl_cons]
      rw [Block.event_unheard (hl a (by simp))]
      exact ih (fun x hx => hl x (by simp [hx]))
  exact this _ h

end Sys2Proof.Machine
end

