-- ==== Sys2Proof/Tests/Slice0.lean ====
section
/-! SUPPORT. The model's own tests: the manual's worked examples, a command that is refused for each
check of `Instr.wf`, and for every clause of every statement of
`Sys2Proof/Certificates/Slice0/Obligations.lean` a state and operands that meet its hypotheses. -/

open Sys2Proof Sys2Proof.Machine

namespace Sys2Proof.Tests

set_option Elab.async false
set_option linter.unusedVariables false

/-- Four clauses of a conjunction at once. -/
theorem four {p q r s t : Prop} (h : p ∧ q ∧ r ∧ s) (k : t) : p ∧ q ∧ r ∧ s ∧ t :=
  ⟨h.1, h.2.1, h.2.2.1, h.2.2.2, k⟩

/-! ## States -/

/-- A table with one value under every key below `n`. -/
def fill (n : Nat) (v : α) : Tbl α := (List.range n).map fun k => (k, v)

/-- A running package: every clock domain runs on its PLL, every power domain is on, and host links
0 to 3 are up with four lanes each. -/
def wRun : State :=
  { State.reset with
    phase := .running, porstLow := false, now := 5000000, bifCode := 2
    plls := fill 14 true, clks := fill 25 { cur := 1, src := 1, srcSh := 1 }
    pwr := fill 149 { st := .on }
    links := fill 4 { st := .dlActive, perstHigh := true, ready := true, width := 4, rate := 5 }
    fuses := { identityWritten := true } }

/-- `wRun` with this record of port 3. -/
def wPort (x : Port) : State := { wRun with ports := [(3, x)] }

/-- A general packet of four grains. -/
def wTiny : Pkt :=
  { hops := noRoute, cw := 0, rest := toLe 4 (mkHdr0 1 0 1 false 0 4 0) ++ zeros 28 }

/-- `s` with no event enabled on any host link. -/
def wDeaf (s : State) : State :=
  { s with fns := [(0, { evtEnable := some 0 }), (128, { evtEnable := some 0 }),
                   (256, { evtEnable := some 0 }), (384, { evtEnable := some 0 })] }
/-! ### The link layer -/

def wTraining : State := wPort { st := .training }
def wRefusing : State := wPort { st := .training, refuse4At := some 4999000 }
def wExchange : State := wPort { st := .exchange, peer := some {} }
def wRefused : State := wPort { st := .refused, trainAttempts := 2 }
def wFailed : State := wPort { st := .failed, oosWhileFailed := some 9 }
def wRetrain : State :=
  wPort { st := .retrain, peer := some { nodeId := 6 }, retrainTo := 0x13, changeResult := 1,
          expect := 9}
def wActive : State :=
  wPort { st := .active, timeOk := true, expect := 8, mode := 0x2F, tRxEcho := 2 ^ 64 + 3 }
def wQuench : State := { wPort { st := .oos } with quench := true }
def wOpen : State :=
  wPort { st := .active, opened := some (zeros 256, ⟨0, 0, ⟨noRoute, 0, zeros 224⟩, 16⟩) }
def wWindow : State :=
  wPort { st := .active, nextSeq := 2, window := [⟨0, 0, 15, 15, zeros 240, 5⟩, ⟨1, 0, 15, 15, zeros 240, 6⟩] }

/-- A data flit with one whole packet of four grains on VC 5. -/
def wDataFlit : Bytes :=
  Flit.encode { ftype := 1, vc := 5, start := 0, used := 4, seq := 8, payload := wTiny.encode }
def wDeafRetrain : State := wDeaf wRetrain
def wDeafActive : State := wDeaf wActive
def wMuteLane : State := { wActive with react := [((40 + 3) * 64 + 8, 17)] }
def wLaneX : State := wPort { st := .exchange, mode := 0x2F, peer := some {} }
/-- Every field at its greatest value. -/
def wFullFlit : Flit :=
  { ftype := 15, vc := 15, start := 15, used := 15, cvcA := 15, cvcB := 15, climA := 65535, climB := 65535, payload := List.replicate 240 0xFF#8 }
/-! ### Fabric time, routing and injection -/

def wParent : State :=
  { wPort { st := .active, timeOk := true, peerSynced := true } with
    dict := [(0x7010 * 256 + 2, 0xFFFF0300 + 9)], ports := [(3, { st := .active, timeOk := true, peerSynced := true })] }
def wLost : State := { wDeaf wRun with time := { parent := some 4, synced := true } }
def wRoot : State :=
  { wRun with dict := [(0x7010 * 256 + 1, 1)],
              time := { now := 7000000900, lastPps := some 4500000, nextSecond := some 9000000000 } }
def wRootSlew : State := { wRoot with time := { now := 7000000999 } }
def wPulse : State := { wRun with time := { now := 7000000900, lastPulse := 6 } }

/-- The path-book entry whose path 0 is one hop out of port 3. -/
def wBook : Bytes := [0x30#8, 0, 0, 0, 0, 2#8] ++ zeros 122
/-- Node 0 with port 3 up and a path to node 7. -/
def wNode : State :=
  { wRun with ports := [(3, { st := .active })], paths := [(7, wBook)],
              counters := [(520, 2 ^ 48 - 1)]}
/-- A packet to `node` with the one hop out of port 3 still to go. -/
def wTo (node : Nat) : Pkt :=
  { hops := 0x30#8 :: zeros 31, cw := 0,
    rest := toLe 4 (mkHdr0 1 0 1 false 0 4 0) ++ toLe 4 (mkFa node 2) ++ zeros 24 }
def wPass : State := { wNode with injQ := [(0, [wTo 7])] }
def wThrough : State :=
  { wNode with ports := [(2, { st := .active }), (3, { st := .active })], rxQ := [(pv 2 1, [wTo 7])] }
def wMade : State :=
  { wNode with madeQ := [(1, [(wTiny, [3]), (wTo 7, [2, 3])]), (3, [(wTiny, [3])])],
               rrIn := [(pv 3 1, 2)]}
def wHome : State := { wNode with rxQ := [(pv 3 1, [{ wTo 0 with cw := mkCw 1 0 0 0 0 }])] }
def wToMe : State := { wNode with injQ := [(1, [wTo 0])] }

/-- Context 5 of host link 0 connects endpoint 1 here to endpoint 2 of node 7. -/
def wCtx : Ctx :=
  { st := .active, localEp := 1, remoteFa := mkFa 7 2, remoteCtx := 9, nextPsn := 40, nextMsn := 3,
    base := 100, nextMatch := 2 }
/-- A host region of index 3, generation 1, with every right; region 4 is its like in the pool. -/
def wReg : Reg :=
  { live := true, pd := 1, rights := 15, start := 0x1000, length := 0x10000, dmaAddr := 0x80000 }
/-- `wNode` with the connection, the regions and a send queue 2 with one operation 8 under way. -/
def wConn (x : Ctx) : State :=
  { wNode with
    ctxs := [(5, x)], eps := [(1, { live := true, pd := 1, mcastKey := some (2 ^ 24 + 3) })],
    pds := [(1, { live := true })]
    regs := [(3, wReg), (4, { wReg with pool := true, poolWord := 6 })]
    links := (0, { st := .dlActive, perstHigh := true, ready := true, width := 4, rate := 5,
                   regPantry := { on := true, count := 16 }, ctxPantry := { on := true, count := 16 } }) ::
      (fill 4 { st := .dlActive, perstHigh := true, ready := true, width := 4, rate := 5 }).drop 1
    queues := [(2, { live := true, base := 0x40000, pd := 1, outstanding := [6, 7] })] }
/-- An operation of queue 2 on the connection. -/
def wOp (k : OpKind) : Op :=
  { kind := k, hl := 0, fid := 0, q := 2, idx := 6, ctx := 5, desc := zeros 64, len := 16, addr := 0x1040,
    lkey := 2 ^ 24 + 3, remoteAddr := 0x2000, rkey := 2 ^ 24 + 4, started := true, allSent := true }
def wInject : State :=
  { wConn wCtx with ops := [(8, { wOp .put with started := false, allSent := false, staged := [(0, zeros 16)] })] }
/-- The first packet at the injection point. -/
def wInj (t : State) : Pkt := match queueOf t.injQ 0 with | k :: _ => k | [] => wTiny
def wInjectGet : State :=
  { wConn wCtx with ops := [(8, { wOp .get with started := false, allSent := false, len := 9000 })] }
def wLongOp : Op :=
  { wOp .put with started := false, allSent := false, len := 5000, staged := [(0, zeros 4096)] }
def wInjectMore : State :=
  { wConn { wCtx with unans := [{ psn := 39, op := 7, kind := 3, off := 0, len := 0, msn := 2 }], timerAt := some 4990000 } with ops := [(8, wLongOp)]}
def wResendOp : Op := { wOp .put with staged := [(0, zeros 16)], resend := [39] }
def wResendPsn : Unans := { psn := 39, op := 8, kind := 3, off := 0, len := 16, msn := 2 }
def wResend : State :=
  { wConn { wCtx with unans := [wResendPsn], timerAt := some 4990000, tries := 1 } with ops := [(8, wResendOp)]}
def wMcastOp : Op :=
  { wOp .mcast with started := false, allSent := false, staged := [(0, zeros 16)],
                    desc := zeros 36 ++ toLe 4 6 ++ zeros 8 ++ toLe 8 (mkFa 0 1) ++ zeros 8}
def wMcastUp : State :=
  { wConn wCtx with ops := [(8, wMcastOp)],
                    sprue := [(6, 2 ^ 2 + 2 ^ 16 + 2 ^ 21 + 2 * 2 ^ 22 + 2 ^ 29)]}

def wWarm : State :=
  wConn { wCtx with heat := [9, 8, 7, 6], holdUntil := [none, some 5000000, some 6000000, none] }

/-- Tree 6 has port 3 as its parent and port 2 and this node as its children. -/
def wTree : Nat := 2 ^ 2 + 2 ^ 16 + 3 * 2 ^ 17 + 2 * 2 ^ 22 + 2 ^ 29
/-- `s` with tree 6. -/
def wOnTree (s : State) : State :=
  { s with sprue := [(6, wTree)], ports := [(2, { st := .active }), (3, { st := .active })] }
def wReport : Pkt :=
  { ctlPkt 5 1 false 0 0 0 0 77 (toLe 4 3 ++ toLe 4 1 ++ zeros 8) with cw := mkCw 0 0 0 2 6 }
/-- `wReport` as it is delivered. -/
def wReportIn : Arrival := { pkt := wReport, row := 2, vc := 1, entry := wTree }
def wReported : State :=
  { wOnTree wNode with delivery := [{ pkt := wTiny, row := 2, vc := 1 }, wReportIn] }
def wCopyPkt : Pkt :=
  { dataPkt { kind := 8, part := 0, dst := mkFa 0 1, src := mkFa 7 2, psn := 77, path := 1 }
      (toLe 8 0x1100 ++ toLe 4 0 ++ toLe 4 16) (List.replicate 16 9#8) with cw := mkCw 0 0 0 1 6 }
def wCopyIn : Arrival := { pkt := wCopyPkt, row := 3, vc := 0, entry := wTree }
def wCopied : State := { wOnTree (wConn wCtx) with delivery := [wCopyIn] }
def wWaited : State :=
  { wOnTree wNode with reports := [{ tree := 6, key := 77, delivered := 2 ^ 32 + 5, wait := 5000000 }]}
/-! ### Packets that reach a connection -/

/-- A request of kind `k` to endpoint 1 here, PSN 103 of context 5. -/
def wReq (k : Nat) (block payload : Bytes) : Arrival :=
  { pkt := dataPkt { kind := k, part := 0, dst := mkFa 0 1, src := mkFa 7 2, psn := 103, msn := 2, ctx := 5 }
      block payload, row := 3, vc := 0 }
/-- `s` with `a` delivered behind another packet. -/
def wGot (s : State) (a : Arrival) : State :=
  { s with delivery := [{ pkt := wTiny, row := 3, vc := 1 }, a] }
def wMatching (s : State) : State := { s with mctxs := [(4, { live := true, pd := 1 })] }

def wRts : Arrival :=
  wReq 2 (toLe 8 0xABCD ++ toLe 2 4 ++ zeros 2 ++ toLe 4 70000 ++ toLe 4 11 ++ zeros 4 ++ toLe 8 0x9000) []
def wRtsIn : State := wGot (wMatching (wConn wCtx)) wRts
def wEmpty : Arrival := wReq 1 (toLe 8 0xABCD ++ toLe 2 4 ++ zeros 22) []
def wEmptyIn : State := wGot (wMatching (wConn wCtx)) wEmpty

/-- A SEND_EAGER of 24 bytes for matching context 4, and what it meets there. -/
def wEager : Arrival :=
  wReq 1 (toLe 8 0xABCD ++ toLe 2 4 ++ zeros 2 ++ toLe 4 24 ++ zeros 16) (List.replicate 24 5#8)
def wTakes : Posted := ⟨2, 6, zeros 64, 0xABCD, 0, 2, 0, 2 ^ 24 + 3, 0x2000, 16, none⟩
def wBuffer : OvfBuf := ⟨2, 7, zeros 64, 2 ^ 24 + 3, 0x3000, 64, 0, 0, false, false, none⟩
def wMeets (a : Arrival) (m : Mctx) : State :=
  { wGot (wConn wCtx) a with mctxs := [(4, { m with live := true, pd := 1 })] }
def wEagerTaken : State := wMeets wEager { posted := [wTakes, { wTakes with idx := 7 }] }
def wEagerKept : State := wMeets wEager { overflow := [wBuffer] }
def wRtsTaken : State := wMeets wRts { posted := [wTakes] }

/-- The operation block of an access at region address 0x1100. -/
def wAccess (key len : Nat) : Bytes := toLe 8 0x1100 ++ toLe 4 key ++ toLe 4 len
def wPut : Arrival := wReq 3 (wAccess (2 ^ 24 + 3) 16) (List.replicate 16 5#8)
def wPutIn : State := wGot (wConn wCtx) wPut
def wGet : Arrival := wReq 4 (wAccess (2 ^ 24 + 3) 9000) []
def wGetIn : State := wGot (wConn wCtx) wGet
def wAdd : Arrival := wReq 6 (wAccess (2 ^ 24 + 4) 16 ++ toLe 8 7 ++ zeros 8) []
def wAddIn : State := { wGot (wConn wCtx) wAdd with pool := [(6 + 0x20, 40#64)] }

/-- An unanswered PSN of operation 8. -/
def wUnans (k : Nat) : Unans := { psn := 39, op := 8, kind := k, off := 0, len := 0, msn := 2 }
/-- `wConn` with PSN 39 of an operation of kind `k` unanswered. -/
def wWaits (k : OpKind) : State :=
  { wConn { wCtx with unans := [wUnans k.code], timerAt := some 4990000, tries := 1, rnrLimit := 1 } with ops := [(8, wOp k)] }
/-- A control packet of kind `k` that node 7 sends the connection. -/
def wCtl (k kspec : Nat) (pl : Bytes) : Arrival :=
  { pkt := ctlPkt k 1 false 0 0 (mkFa 0 1) (mkFa 7 2) kspec pl, row := 3, vc := 1 }
def wAck : Arrival := wCtl 1 38 (zeros 4 ++ toLe 4 5 ++ toLe 8 1)
def wAckIn : State := wGot (wWaits .put) wAck
def wNak : Arrival := wCtl 2 39 (zeros 2 ++ toLe 1 5 ++ toLe 1 2 ++ toLe 4 5 ++ zeros 8)
def wNakIn : State := wGot (wWaits .put) wNak
def wRnr : Arrival := wCtl 2 39 (zeros 3 ++ toLe 1 1 ++ toLe 4 5 ++ toLe 4 20)
def wRnrIn : State := wGot (wWaits .put) wRnr

def wGetOp : Op := { wOp .get with len := 8192, allSent := false }
def wGetWaits : State :=
  { wConn { wCtx with unans := [{ wUnans 4 with len := 4096 }, { wUnans 4 with psn := 40, off := 4096, len := 16 }] } with
    ops := [(8, wGetOp)] }
def wResp : Arrival :=
  { pkt := dataPkt { kind := 5, cls := 1, part := 0, dst := mkFa 0 1, src := mkFa 7 2, psn := 40, offset := 4096, ctx := 5 }
      (wAccess 0 8192) (List.replicate 16 3#8), row := 3, vc := 1 }
def wRespIn : State := wGot wGetWaits wResp
def wOld : Arrival :=
  { pkt := dataPkt { kind := 7, cls := 1, part := 0, dst := mkFa 0 1, src := mkFa 7 2, psn := 39, ctx := 5 } [] (toLe 8 77),
    row := 3, vc := 1 }
def wOldIn : State := wGot (wWaits .atomic) wOld
def wFin : Arrival :=
  { pkt := ctlPkt 3 0 false 0 0 (mkFa 0 1) (mkFa 7 2) 103 (toLe 4 2 ++ toLe 4 5 ++ toLe 4 16 ++ toLe 1 5), row := 3, vc := 0 }
def wRtsOp : Op := { wOp .rts with msn := 2, rdvUntil := some 5000000 }
def wFinIn : State := { wGot (wConn wCtx) wFin with ops := [(8, wRtsOp)] }

def wUnroutable : Arrival := wCtl 4 39 (toLe 1 2 ++ zeros 3 ++ toLe 4 (mkFa 7 2) ++ toLe 4 9)
def wUnroutableIn : State :=
  wGot (wConn { wCtx with unans := [wUnans 3], tries := 7 }) wUnroutable
def wStrayReport : State := wGot (wConn wCtx) wUnroutable

def wAckDue : State := wConn { wCtx with ackSince := some 4999000, ackCount := 3 }
def wRto : State :=
  { wWaits .get with ctxs := [(5, { wCtx with unans := [wUnans 4], timerAt := some 4872000, tries := 1 })] }
def wRnrOver : State :=
  { wWaits .get with ctxs := [(5, { wCtx with unans := [{ wUnans 4 with rnrUntil := some 5000000 }] })] }
def wLate : Unans := { psn := 39, op := 8, kind := 3, off := 0, len := 16, msn := 2 }
def wRtoPut : State :=
  { wWaits .put with ctxs := [(5, { wCtx with unans := [wLate], timerAt := some 4872000, tries := 1 })] }
def wRnrPut : State :=
  { wWaits .put with ctxs := [(5, { wCtx with unans := [{ wLate with rnrUntil := some 5000000 }] })] }
def wHolding : State :=
  { wRun with atomics := [⟨5, 3, [], 0, 10, 4999991⟩, ⟨5, 3, [], 0, 10, 4999990⟩, ⟨4, 3, [], 0, 0, 0⟩] }
def wRdv : State := { wConn wCtx with ops := [(8, wRtsOp)] }

/-- The read of a fill of entry `k`. -/
def wFillRead (region : Bool) (k : Nat) : DmaReq :=
  { tag := 6, hl := 0, fid := 0, pasid := none, kind := .read, addr := 0x1000, len := 256, key := none, purpose := .fill region k }
def wFillCtx : State :=
  { wConn { wCtx with spilled := true, filling := true } with dma := [wFillRead false 5], fillStash := [{ wPut with awaits := .ctx 5 }, { wPut with pkt := wTiny }] }
def wFillReg : State :=
  { wConn wCtx with regs := [(3, { wReg with spilled := true, filling := true })], dma := [wFillRead true 3], fillStash := [{ wPut with awaits := .region 3 }] }
def wRead : DmaReq :=
  { tag := 4, hl := 0, fid := 0, pasid := none, kind := .read, addr := 0x80040, len := 3, key := some 3, purpose := .payload 8 0 }
def wReading : State :=
  { wConn wCtx with ops := [(8, wOp .put)], dma := [{ wRead with tag := 3 }, wRead] }
def wRecv : Posted := ⟨2, 1, zeros 64, 0, 0, 0, 0, 2 ^ 24 + 3, 0x2000, 64, none⟩
def wLent : OvfBuf := ⟨2, 9, zeros 64, 2 ^ 24 + 3, 0x3000, 64, 32, 2, false, false, none⟩
def wMsg : InFlight :=
  { st := .matched, ctx := 5, msn := 2, hl := 0, mctx := 4, rts := false, tag := 0, srcFa := 9, msgLen := 64,
    pullKey := 0, pullAddr := 0, got := 32, piece := some (2, 9, 0), inPiece := [(0, 16), (16, 16)], copying := true, recv := some wRecv }
def wCopying : State :=
  { wConn wCtx with inflight := [(8, wMsg)],
                    mctxs := [(4, { live := true, overflow := [wLent] })] }
/-! ### Queues -/

/-- A descriptor of opcode `op`, owned by the device in the first lap; `rest` is bytes 16 on. -/
def wDesc (op flags ctx : Nat) (rest : Bytes) : Bytes :=
  slice (toLe 4 (mkCtrl true true false op flags 0) ++ toLe 4 ctx ++ toLe 8 0x77 ++ rest) 0 64
/-- `wConn` with queue 2, of type `ty`, having taken descriptor `d`. -/
def wHead (ty : Nat) (d : Bytes) : State :=
  { wMatching (wConn wCtx) with
    queues := [(2, { live := true, ty := ty, base := 0x40000, pd := 1, pollAt := none, taken := [{ idx := 6, bytes := d, at_ := 3, traced := false }] })] }
/-- The taken descriptor of `wHead`. -/
def wTaken (d : Bytes) : Taken := { idx := 6, bytes := d, at_ := 3, traced := false }

/-- `s` with two reads in the bucket of every host link. -/
def wPays (s : State) : State :=
  { s with links := s.links.map fun e => (e.1, { e.2 with bucket := 2000000000 }) }
def wPoll : State :=
  wPays { wConn wCtx with queues := [(2, { live := true, pollBase := 7, interval := 9000, pollAt := some 4999999 })] }
def wNop : Bytes := wDesc 0 0 0 []
def wEqRead : State :=
  wPays { wRun with queues := [(2, { live := true, ty := 2, eqFree := 5, pollAt := some 5000000 })]}
def wNopHead : State := wHead 0 wNop
def wFence : Bytes := wDesc 8 0 0 []
def wFenceHead : State := wHead 0 wFence

/-- Bytes 16 on of a SEND of `n` bytes. -/
def wSendRest (n : Nat) : Bytes :=
  toLe 8 0xAB ++ toLe 2 4 ++ zeros 2 ++ toLe 4 n ++ toLe 4 (2 ^ 24 + 3) ++ zeros 4 ++ toLe 8 0x1040
def wSendBig : Bytes := wDesc 1 0 5 (wSendRest 8193)
def wSendBigHead : State := wHead 0 wSendBig
def wSend : Bytes := wDesc 1 0 5 (wSendRest 8192)
def wSendHead : State := wHead 0 wSend
def wSendNone : Bytes := wDesc 1 0 5 (wSendRest 0)
def wSendNoneHead : State := wHead 0 wSendNone
/-- Bytes 16 on of a PUT, GET or ATOMIC. -/
def wPutRest (n lkey tree tail : Nat) : Bytes :=
  toLe 8 0x2000 ++ toLe 4 (2 ^ 24 + 4) ++ toLe 4 n ++ toLe 4 lkey ++ toLe 4 tree ++ toLe 8 0x1040 ++ toLe 8 tail
def wPutD : Bytes := wDesc 2 0 5 (wPutRest 16 (2 ^ 24 + 3) 0 0)
def wPutHead : State := wHead 0 wPutD
def wMcastD : Bytes :=
  wDesc 2 1 0 (toLe 8 0x2000 ++ zeros 4 ++ toLe 4 16 ++ toLe 4 (2 ^ 24 + 3) ++ toLe 4 6 ++ toLe 8 0x1040 ++ toLe 8 (2 ^ 16 + 2))
def wMcastHead : State := wHead 0 wMcastD
def wGetD : Bytes := wDesc 3 0 5 (wPutRest 9000 (2 ^ 24 + 3) 0 0)
def wGetHead : State := wHead 0 wGetD
def wAtomicD : Bytes := wDesc 4 0 5 (wPutRest 16 0 0 0)
def wAtomicHead : State := wHead 0 wAtomicD

def wRecvD : Bytes :=
  wDesc 5 0 0 (toLe 8 0xAB ++ toLe 8 0xF ++ toLe 4 4 ++ toLe 4 9 ++ toLe 8 0x1040 ++ toLe 4 (2 ^ 24 + 3) ++ toLe 4 64)
def wRecvHead : State := wHead 1 wRecvD
def wLendD : Bytes :=
  wDesc 6 0 0 (zeros 16 ++ toLe 4 4 ++ zeros 4 ++ toLe 8 0x1040 ++ toLe 4 (2 ^ 24 + 3) ++ toLe 4 16384)
def wLendHead : State := wHead 1 wLendD

/-! ### Moulds -/

/-- The 16 bytes of a step (R273). -/
def wStep (sop spvc arg len slotA slotB : Nat) : Bytes :=
  toLe 1 (sop + 16 * spvc) ++ zeros 3 ++ toLe 2 arg ++ toLe 4 len ++ toLe 3 slotA ++ toLe 3 slotB
/-- An image with the peer table `peers` and these steps, of buffers of 64 bytes. -/
def wImage (peers : List Nat) (steps : List Bytes) : Bytes :=
  toLe 4 0x31444C4D ++ toLe 2 1 ++ toLe 2 steps.length ++ toLe 2 peers.length ++ toLe 2 1 ++ zeros 4 ++ toLe 4 8 ++
    toLe 4 64 ++ toLe 4 64 ++ zeros 36 ++
    slice (peers.flatMap (toLe 4)) 0 (16 * ((peers.length + 3) / 4)) ++ steps.flatten
/-- A POUR of index 9, number 21, with both buffers in region 3. -/
def wPourD : Bytes :=
  wDesc 7 0 0 (toLe 4 9 ++ toLe 4 21 ++ toLe 4 (2 ^ 24 + 3) ++ toLe 4 8 ++ toLe 4 (2 ^ 24 + 3) ++ toLe 4 0xA5 ++ toLe 8 0x1040 ++ toLe 8 0x1080)
/-- `s` with that image valid at index 9, with these pours. -/
def wMould (s : State) (image : Bytes) (pours : List Pour) : State :=
  { s with moulds := [(9, { st := .valid, image := image, nextSeq := 21, pages := 1, pours := pours })] }
def wPour : Pour := { q := 2, idx := 6, fid := 0, hl := 0, desc := wPourD, seq := 21 }
def wArmed : Pour :=
  { wPour with armed := true, armedAt := 4000000, watchdog := 1000, lastDoneAt := 4000000 }
def wPourHead : State := wMould (wHead 0 wPourD) (wImage [] [wStep 0 0 0 0 0 0]) []

/-- An armed pour of index 9 whose next step is `step`, with a step behind it. -/
def wAt (step : Bytes) : State := wMould (wOnTree (wConn wCtx)) (wImage [7] [step, step]) [wArmed]
/-- The step of `wAt`. -/
def wTheStep (step : Bytes) : Step := ((wAt step).mould 9).step 0
def wS0 : Bytes := wStep 0 0 0 0 0 0
def wAt0 : State := wAt wS0
def wS1 : Bytes := wStep 1 0 0 16 4 1
def wAt1 : State := wAt wS1
def wS2 : Bytes := wStep 2 0 0 16 4 1
def wAt2 : State := { wAt wS2 with slots := [(slotKey 9 33, some 7#8)] }
def wS3 : Bytes := wStep 3 2 0 5000 4 1
def wAt3 : State := wAt wS3
def wS4 : Bytes := wStep 4 0 0 16 4 0
def wAt4 : State := wAt wS4
def wS5 : Bytes := wStep 5 0 0 16 0 2
def wAt5 : State := { wAt wS5 with slots := [(slotKey 9 0, some 7#8), (slotKey 9 16, some 5#8)] }
def wS6 : Bytes := wStep 6 1 0 16 0 6
def wAt6 : State := wAt wS6
def wS7 : Bytes := wStep 7 1 0 0 0 6
def wAt7 : State := { wAt wS7 with sprue := [(6, wTree + 2 ^ 21)] }

def wArm : State := wMould (wConn wCtx) (wImage [] [wS0]) [wPour]
def wLastRun : Pour := { wArmed with next := 1, running := [⟨0, true, 4⟩] }
def wLast : State := wMould (wConn wCtx) (wImage [] [wS0]) [wLastRun]
/-- MOULD_DATA of 16 bytes for slot address 32 of index 9. -/
def wData : Arrival :=
  { pkt := (wConn wCtx).mouldPkt 0 0 0 (mouldBlock 9 0 21 32 0 0) (List.replicate 16 3#8), row := 3, vc := 8 }
def wDataIn : State := wGot (wMould (wConn wCtx) (wImage [] [wS4]) [wArmed]) wData
def wBreak : Arrival :=
  { pkt := ctlPkt 6 0 true 0 0 0 (mkFa 7 0) 21 (toLe 2 9 ++ toLe 1 1 ++ toLe 1 3 ++ toLe 4 7 ++ toLe 2 2 ++ toLe 1 1 ++ zeros 1), row := 3, vc := 8 }
def wBreakIn : State := wGot (wMould (wConn wCtx) (wImage [] [wS4]) [wPour]) wBreak
def wDog : State :=
  wMould (wDeaf (wConn wCtx)) (wImage [] [wS4]) [{ wArmed with running := [⟨0, false, 4⟩] }]
/-! ### The command block and lock cells -/

/-- `s` with these arguments of the PF of host link 0. -/
def wArgs (s : State) (args : List (BitVec 64)) : State := { s with fns := [(0, { args := args })] }
def wNoArgs : State := wArgs (wConn wCtx) []
def wPdArg : State := wArgs (wConn wCtx) [9]
def wEpArgs : State :=
  { wArgs (wConn wCtx) [0x8000, 1 + 2 * 2 ^ 32] with eps := [(1, { live := true, pd := 1 })],
                                                     dict := [(0x2010 * 256 + 16, 5)]}
def wEpArg : State :=
  { wArgs (wConn wCtx) [2] with eps := [(1, { live := true, pd := 1 }), (2, { live := true, pd := 1 })]}
def wBindArgs : State := wArgs (wConn wCtx) [1, 0x01000003]

def wCtxNew : State := { wArgs (wConn wCtx) [1, 0x1C002, 2 ^ 63] with ctxs := [] }
def wCtxJoin : State := wArgs (wConn { wCtx with st := .setup }) [5, 77, 0xFFFFFFFF]
def wCtxAsk : State := wArgs (wConn { wCtx with st := .error, errStatus := 12 }) [5]

/-- Arguments of a registration in PD 1 of 64 bytes at 0x5000, with two rights. -/
def wRegArgs : State := wArgs (wConn wCtx) [1 + 6 * 2 ^ 24, 0x5000, 64, 0x9000]
def wDereg : State :=
  { wArgs (wConn wCtx) [0xFF000003] with regs := [(3, { wReg with gen := 255 })], queues := [] }
def wDeregWait : State :=
  { wConn wCtx with fns := [(0, { wait := some (.regDeregister 0x01000003), lastCode := 0x31 })],
                    regs := [(3, { wReg with closing := true })] }
def wPantryArgs : State := { wArgs wRun [0, 2 ^ 21, 8192] with dma := [] }
def wPantryGone : State := { wArgs (wConn wCtx) [1] with regs := [(7, { gen := 9 })] }
/-- `wRun` with VF 1 of host link 0 up. -/
def wVf (x : Fn) : State :=
  { wRun with links := (0, { st := .dlActive, perstHigh := true, ready := true, width := 4, rate := 5, vfEnable := true, numVfs := 2 }) ::
                (fill 4 { st := .dlActive, perstHigh := true, ready := true, width := 4, rate := 5 }).drop 1,
              fns := [(1, { x with ready := true })] }
def wVfUp : State := wVf {}

def wMctxArgs : State := wArgs (wConn wCtx) [4, 1]
def wMctxGone : State := { wArgs (wMatching (wConn wCtx)) [4] with inflight := [] }
def wCancelArgs : State :=
  { wArgs (wMatching (wConn wCtx)) [2, 1] with
    queues := [(2, { live := true, ty := 1, base := 0x40000, outstanding := [1] })], mctxs := [(4, { live := true, posted := [wRecv] })] }
def wQArgs : State := { wArgs (wConn wCtx) [0x10000, 1 + 6 * 16 + 2 ^ 36, 0, 0] with queues := [] }

def wDump : State := wArgs wRun [1 + 31 * 2 ^ 16 + 2 ^ 24, 64, 2 + 10 * 2 ^ 32]
def wStop : State := wArgs wRun [2]
def wProgram : State := { wArgs wRun [3, 1700 + 18 * 2 ^ 16 + 2 ^ 31] with counters := [(1700, 5)] }
def wTrace : State := wArgs (wConn wCtx) [1, 4096, 6, 2 + 65535 * 2 ^ 32]
def wSteps : State := wArgs wRun [3, 1, 255]
def wStepsEnd : State := wArgs wRun [4]

/-- `wRun` with this record of lock cell 7. -/
def wCell (l : Lock) : State := { wRun with locks := [(7, l)] }
def wCellFree : State := wCell { refused := [0] }
def wCellHeld : State :=
  wCell { held := true, owner := 8, waiters := [⟨16, none⟩], grantSeq := 0xFFFF }
def wCellMine : State :=
  wCell { held := true, waiters := [⟨8, none⟩, ⟨16, none⟩], orphaned := true, grantSeq := 0xFFFF }
def wCellAlone : State := wCell { held := true }
def wCellWaits : State := wCell { held := true, owner := 8, waiters := [⟨16, none⟩, ⟨0, none⟩] }
def wCellClaim : State := wCell { mode := 1 }
def wCellForce : State :=
  wCell { mode := 2, held := true, owner := 8, orphaned := true, waiters := [⟨16, none⟩] }
def wCellOpen : State :=
  { wCell {} with fns := [(0, { msixEn := true, msixTable := [(16 * 255 + 12, 0)] })] }
def wCellNext : State := wCell { held := true, waiters := [⟨8, some 3⟩, ⟨16, none⟩] }
def wCellFull : State :=
  wCell { held := true, owner := 40, waiters := (List.range 32).map fun i => ⟨i + 1, none⟩ }
def wCellTaken : State := wCell { mode := 1, held := true, owner := 8 }
def wCellLone : State := wCell { mode := 2, held := true, owner := 8, orphaned := true }

/-! ### Gather packets and the checks of a mould -/

def wGatherPkt : Pkt :=
  ((wConn wCtx).mouldPkt 0 0 0 (mouldBlock 9 0 21 32 0 0) (List.replicate 16 3#8)).onTree 2 6
def wHeldBack : State :=
  { wOnTree (wConn wCtx) with gatherHeld := [pv 16 8], injQ := [(8, [wGatherPkt, wGatherPkt])] }
def wHeldBack2 : State :=
  { wOnTree (wConn wCtx) with
    gatherHeld := [pv 2 8], rxQ := [(pv 2 8, [wGatherPkt])],
    ports := [(2, { st := .active, pvcSettled := 2 }), (3, { st := .active })] }
def wChecking (im : Bytes) : State :=
  { wConn wCtx with ports := [], moulds := [(9, { st := .checking, image := im })] }
def wGoodLoad : State := wChecking (wImage [] [wS0])
def wBadLoad : State := wChecking (wImage [] [wS0, wStep 9 0 0 0 0 0])
/-- An unauthenticated request of principal `p` from `src`. -/
def wAsk (src : IdpSource) (p mt idx sub off x count : Nat) (data : Bytes) : IdpReq :=
  ⟨src, toLe 1 1 ++ toLe 1 mt ++ zeros 1 ++ toLe 1 p ++ zeros 12 ++ toLe 2 idx ++ toLe 1 sub ++ zeros 1 ++
    toLe 4 off ++ toLe 2 data.length ++ toLe 2 x ++ toLe 4 count ++ data, false⟩
def wCommit : IdpReq := wAsk (.mailbox 0) 4 mtSegCommit 0x6009 0 0 1 0 []
def wLoadEnds : State := { wGoodLoad with loadWait := [(9, wCommit)] }
/-! ### The register interface -/

/-- `s` with this record of the PF of host link 0. -/
def wFn (x : Fn) : State := { wRun with fns := [(0, x)] }
def wStrobe : State := wFn { evtQueueSh := 0x8002, evtEnableSh := some 5, badAccess := 9 }
def wStrobeSp : State := { wRun with reactSh := [(70, 5)] }
def wStrobeGated : State :=
  { wRun with reactSh := [(70, 5), (64 * 3 + 8, 7)], react := [(71, 5), (64 * 3 + 8, 8)],
              pwr := (fill 149 { st := .on }).map fun e => if e.1 = 44 then (44, {}) else e}
/-- `s` with the mask of source `src` of block `blk` 0. -/
def wMute (s : State) (blk src : Nat) : State := { s with react := [(blk * 64 + src, 0)] }
def wVfStrobe : State := wMute (wVf {}) 108 1
def wWake : State :=
  { wRun with queues := [(2, { live := true, interval := 9000, pollAt := none })] }
def wRebind : State := { wConn wCtx with dict := [(0x2010 * 256 + 16, 5)] }
def wMbx : State :=
  { wRun with links := (0, { st := .dlActive, perstHigh := true, ready := true, mbxReq := [(0, 1#8), (31, 9#8)] }) :: wRun.links.drop 1}
def wMbxBusy : State :=
  { wRun with links := (0, { st := .dlActive, perstHigh := true, ready := true, mbxBusy := true }) :: wRun.links.drop 1}
def wDeafHl : State := wMute wRun 108 1
def wClock : State := { wRun with time := { now := 2 ^ 40 + 7 } }
def wLatched : State := wFn { latch := [(0x28, some 77#32)] }

/-! ### Clocks, power and faults -/

/-- `wRun` with this record of clock domain `d`. -/
def wClk (d : Nat) (c : Clk) : State :=
  { wRun with clks := (fill 25 { cur := 1, src := 1, srcSh := 1 }).map fun e => if e.1 = d then (d, c) else e}
def wHeldClk : State :=
  wClk 22 { held := true, cur := 1, src := 1, switching := true, hung := true }
def wClkMute : State := wMute wRun 132 1
def wPll : State := { wRun with react := [(59 * 64 + 8, 17)] }
def wPllOff : State := { wRun with plls := (fill 14 true).drop 1 }
def wSwitch : State := wClk 22 { cur := 0, src := 1, switching := true }
def wSlow : State :=
  { wClk 3 { cur := 1, src := 0, switching := true } with react := [(132 * 64 + 9, 0)] }
def wSvc : State := wClk 20 {}
def wSvcPll : State := { wMute wRun 132 9 with resetCause := 0 }
def wSvcHung : State :=
  { wClk 20 { src := 1, switching := true } with react := [(132 * 64 + 9, 0)], plls := [] }
def wGateAsk : State := wClk 3 { cur := 1, src := 1, gate := true, gateAsked := some 4900000 }
/-- `wRun` with this record of power domain `e`. -/
def wDom (e : Nat) (d : PwrDom) : State :=
  { wRun with pwr := (fill 149 { st := .on }).map fun x => if x.1 = e then (e, d) else x }
def wQuiet : State := wDom 34 { st := .on, quietAsked := some 4900000 }
def wRamp : State := wDom 34 { st := .ramping }
def wPortOff : State := { wRun with dict := [(0x3103 * 256 + 1, 0)] }
def wDieOff : State :=
  { wRun with pwr := [(elBridge 1, { st := .on })], now := 2000000,
              dict := (List.range 4).map fun k => ((0x3104 + k) * 256 + 1, 0)}

def wMeter : State :=
  { wRun with gov := { counts := [[2400], List.replicate 16 2300, [], []], tempo := [2400, 2300, 0, 0] }}
def wSteady : State := { wRun with gov := { vdd := 720 } }
def wAvs : State := wMute wSteady 132 4
/-! ### Faults, SRAM and regions -/

def wCryptoMute : State := wMute wRun 130 8
def wPortMute : State := wMute wRun 43 4
def wCrypto : State := { wRun with react := [(130 * 64 + 8, 11)] }
def wPortReset : State := { wExchange with react := [(43 * 64 + 4, 4)] }
def wPoison : State :=
  { wRun with banks := [(bankKey 47 0, { poisoned := [⟨2047, 7, 4, some 5⟩, ⟨2047, 6, 4, none⟩] })]}
def wRow : State := wMute wRun 107 2
def wRowAgain : State :=
  { wRun with react := [(60 * 64 + 2, 0), (60 * 64 + 8, 0)], scrubPasses := [(0, 4)],
              banks := [(bankKey 0 31, { spareRows := 1, rowErrors := [(2047, 3)] })] }
def wTwoRegions : State := { wDeaf (wConn wCtx) with regions := 9 }
def wLastRegion : State := { wRun with regions := 4 }

/-! ### Counters, the dictionary and the management network -/

def wBytes : State :=
  { wPort { st := .active, winTx := 2 ^ 65, winRx := 9 } with time := { now := 1000 },
                                                              bwEnd := 1000, bwStepped := true}
def wDumpVf : State :=
  { wVf { dump := { on := true, period := 1, rseq := 2 ^ 32 - 1, slot := 3, base := 4096 } } with time := { now := 1001 },
                                                                                                  ctrEvent := [(2048, (1, 1, 1))]}

/-- `wRun` with this request waiting. -/
def wIdp (r : IdpReq) : State := { wRun with idpQ := [r] }
def wReadReq : IdpReq := wAsk (.mailbox 0) 4 mtRead 0x2030 8 0 0 0 []
def wWriteReq : IdpReq := wAsk (.mailbox 0) 4 mtWrite 0x2030 8 0 0 0 (toLe 4 1048576)
def wInfoReq : IdpReq := wAsk (.t1s 5) 0 mtInfo 0 0 0 0 0 []
def wInfoLong : IdpReq := wAsk (.t1s 5) 0 mtInfo 0 0 0 0 0 [9]
def wBadReq : IdpReq := wAsk (.t1s 5) 0 mtWrite 0x2030 8 0 0 0 (toLe 4 64)
def wOpenReq : IdpReq := wAsk (.mailbox 0) 4 mtSegOpen 0xA010 0 0 0 32 []
def wNonceRow : ObjRow := ⟨0xA010, 1, 0, .staged 32, .wo, 2222, 0, false, false⟩
/-- `wRun` with this request waiting and a transfer of a nonce open. -/
def wXfer (r : IdpReq) (bs : Bytes) : State :=
  { wIdp r with xfers := [⟨77, 0xA010, 0, 4, 32, bs, 4000000⟩] }
def wDataReq : IdpReq := wAsk (.mailbox 0) 4 mtSegData 0xA010 0 28 77 0 (toLe 4 9)
def wCommitReq : IdpReq := wAsk (.mailbox 0) 4 mtSegCommit 0xA010 0 0 77 0 []
def wAbortReq : IdpReq := wAsk (.mailbox 0) 4 mtSegAbort 0xA010 0 0 77 0 []
def wIdle : State := { wXfer wAbortReq [] with now := 10004000000 }

/-- A frame for the device with this IDP message. -/
def wFrame : T1sFrame := ⟨wRun.fuses.macAddr, 5, false, 0x88B5, [0x49, 0x44] ++ wInfoReq.msg⟩
def wEight : State := { wRun with idpQ := List.replicate 8 wInfoReq }
def wI3c : State := { wRun with i3cAddr := some 8 }
def wLms : State := { wRun with lower := { made := true, used := 1023 } }

/-! ### Resets, host links and the test access port -/

def wAsked : State := { wRun with rstAsked := true, bifStrap := 2 }
def wLcDue : State := { wRun with lcReset := some 5000000, bootMode := 1 }
def wStopped : State := { wRun with quench := true, rstAsked := true }
/-- `wRun` with this record of host link 0. -/
def wHl (l : HostLink) : State := { wRun with links := (0, l) :: wRun.links.drop 1 }
def wStill : State := { wHl { st := .inReset } with clks := [] }
/-- `wRun` with a queue of the PF of host link 0 and one of VF 1, an MR of each, and a held cell. -/
def wOwned : State :=
  { wVf {} with queues := [(2, { live := true }), (3, { live := true, fid := 1 })], regs := [(7, { gen := 9 })],
                eps := [(1, { live := true, pd := 1 }), (2, { live := true, pd := 1, fid := 1 })] }
def wOwnedLock : State :=
  { wOwned with locks := [(5, { held := true, owner := 0, grantSeq := 3 })] }
def wTrst : State := wClk 23 { cur := 1, src := 1, gated := true }
def wTap : State :=
  { wRun with trstHigh := true, fuses := { provisioned := true, identityWritten := true } }
def wTapOwner : State :=
  { wTap with fuses := { provisioned := true, identityWritten := true, epoch := 1 } }
def wHold : State := { wTap with phase := .debugHold }
def wCell0 : State := { wRun with locks := [(5, { mode := 1 })] }
def wVfCell : State := wMute (wVf {}) 108 8
def wQueued : State := { wRun with pending := [.idpRead, .bwWindowEnd] }
def wXferFull : State :=
  { wRun with xfers := (List.range 4).map fun i => ⟨i + 1, 0xA010, 0, 4 + i, 32, [], 4000000⟩ }
def wFloors : State := { wRun with flash := { floors := [4096, 0, 8192] } }
/-- The state that a command leaves. -/
def wAfter (c : Instr) (s : State) : State :=
  match exec c s with
  | .next t => t
  | _ => s

/-! ## What the statements ask for is met -/

/-- What `Obligations.LinkTraining` asks for is met. -/
theorem test_meets_LinkTraining :
    (∃ (s : State) (p : PortId) (row : Fin 9) (lanes : Fin 16), s.portLive p = true ∧
      (s.port p).st = .training ∧ (s.port p).mayTrain row lanes = true ∧ (∀ u,
      (s.port p).refuse4At = some u → u + 1000 ≤ s.now)) ∧
    (∃ (s : State) (p : PortId), s.live = true ∧ (s.port p).st = .training ∧ (s.port p).since +
      1000000 ≤ s.now) ∧
    (∃ (s : State) (p : PortId), s.live = true ∧ (s.port p).st = .exchange ∧ (s.port p).since +
      1000000 ≤ s.now) ∧
    (∃ (s : State) (p : PortId), s.live = true ∧ ((s.port p).st = .exchange ∨
      (s.port p).st = .refused)) ∧
    (∃ (s : State) (p : PortId), s.live = true ∧ (s.port p).st = .failed ∧ (s.port p).since +
      max (s.portObj p 6) (32 * (s.port p).peerHbUnits) ≤ s.now ∧ (∀ u,
      (s.port p).oosWhileFailed = some u → u + max (s.portObj p 6)
      (32 * (s.port p).peerHbUnits) ≤ s.now)) :=
  ⟨⟨wTraining, 3, 4, 12, by decide +kernel⟩,
   ⟨wTraining, 3, by decide +kernel⟩,
   ⟨wExchange, 3, by decide +kernel⟩,
   ⟨wRefused, 3, by decide +kernel⟩,
   ⟨wFailed, 3, by decide +kernel⟩⟩

/-- What `Obligations.LinkSending` asks for is met. -/
theorem test_meets_LinkSending :
    (∃ (s : State) (p : PortId), s.linkRuns p = true ∧ (s.port p).sentHbAt +
      (s.port p).loaded.hbPeriod ≤ s.now) ∧
    (∃ (s : State) (p : PortId), s.portLive p = true ∧ ((s.port p).st = .exchange ∨
      (s.port p).st = .refused ∨ (s.port p).st = .retrain)) ∧
    (∃ (s : State) (p : PortId), s.portLive p = true ∧ (s.port p).st = .active ∧
      (s.port p).timeOk = true ∧ (s.port p).lastTimeFlit + s.timePeriod ≤ s.now) ∧
    (∃ (s : State) (p : PortId), s.quench = true ∧ (s.port p).st = .oos ∧ s.domOn
      (elSerdes p) = true ∧ s.domainRuns p = true) ∧
    (∃ (s : State) (p : PortId), s.linkRuns p = true ∧ ((s.port p).st ≠ .active ∨
      (s.port p).pauseTarget ≠ none)) ∧
    (∃ (s : State) (p : PortId) (bs : Bytes) (k : TxPkt), s.portLive p = true ∧
      (s.port p).st = .active ∧ (s.port p).pauseTarget = none ∧ (s.port p).pauseOwed = none ∧
      (s.port p).unacked.length < s.replayDepth p ∧ (s.port p).opened = some (bs, k) ∧
      240 < bs.length ∧ bs.length % 16 = 0 ∧ s.quench = false) ∧
    (∃ (s : State) (p : PortId), s.portLive p = true ∧ (s.port p).st = .active ∧
      (s.port p).pauseTarget = none ∧ s.replayDue p = true) :=
  ⟨⟨wExchange, 3, by decide +kernel⟩,
   ⟨wRetrain, 3, by decide +kernel⟩,
   ⟨wActive, 3, by decide +kernel⟩,
   ⟨wQuench, 3, by decide +kernel⟩,
   ⟨wRefused, 3, by decide +kernel⟩,
   ⟨wOpen, 3, zeros 256, ⟨0, 0, ⟨noRoute, 0, zeros 224⟩, 16⟩, by decide +kernel⟩,
   ⟨wWindow, 3, by decide +kernel⟩⟩

set_option maxRecDepth 20000 in
/-- What `Obligations.LinkReceive` asks for is met. -/
theorem test_meets_LinkReceive :
    (∃ (s : State) (p : PortId) (raw : Bytes) (ok : Bool) (corr : List Nat), raw.length ≠ 256) ∧
    (∃ (s : State) (p : PortId) (raw : Bytes) (ok : Bool) (corr : List Nat), raw.length = 256 ∧
      s.quiet ∧ s.quench = false ∧ s.domainRuns p = true ∧ ((s.port p).st = .active ∨
      (s.port p).st = .retrain) ∧ (ok && crcGood raw) = false) ∧
    (∃ (s : State) (p : PortId) (raw : Bytes) (corr : List Nat), raw.length = 256 ∧ s.quiet ∧
      crcGood raw = true ∧ (Flit.decode raw).ftype = 0 ∧ s.hears p = true) ∧
    (∃ (s : State) (p : PortId) (raw : Bytes) (ok : Bool) (corr : List Nat), raw.length = 256 ∧
      s.quiet ∧ s.hears p = false) ∧
    (∃ (s : State) (p : PortId) (raw : Bytes) (corr : List Nat), raw.length = 256 ∧ s.quiet ∧
      s.quench = false ∧ s.domainRuns p = true ∧ (s.port p).st = .exchange ∧ crcGood raw = true
      ∧ (Flit.decode raw).ftype = 2) ∧
    (∃ (s : State) (p : PortId) (raw : Bytes) (corr : List Nat) (g : Gathering),
      raw.length = 256 ∧ s.quiet ∧ s.quench = false ∧ s.domainRuns p = true ∧
      ((s.port p).st = .active ∨ (s.port p).st = .retrain) ∧ crcGood raw = true ∧
      (Flit.decode raw).ftype = 1 ∧ (Flit.decode raw).seq = (s.port p).expect ∧ gatherFlit
      (s.port p).partialRx (Flit.decode raw) = some g) :=
  ⟨⟨wActive, 3, zeros 255, true, [1], by decide +kernel⟩,
   ⟨wActive, 3, zeros 256, true, [1], by decide +kernel⟩,
   ⟨wActive, 3, Flit.encode { ftype := 0 }, [3, 0, 0, 2 ^ 48], by decide +kernel⟩,
   ⟨wTraining, 3, zeros 256, true, [1], by decide +kernel⟩,
   ⟨wExchange, 3, Flit.encode { ftype := 2 }, [1], by decide +kernel⟩,
   ⟨wActive, 3, wDataFlit, [1], { cur := none, done := [(5, wTiny)], ok := true },
     by decide +kernel⟩⟩

/-- What `Obligations.LinkFailure` asks for is met. -/
theorem test_meets_LinkFailure :
    (∃ (s : State) (p : PortId) (r : CapRec), s.portLive p = true ∧ (s.port p).st = .retrain ∧
      (s.port p).peer = some r ∧ s.unheard 2 ∧ modeLanes (s.port p).retrainTo &&&
      (s.port p).retiredLanes = 0) ∧
    (∃ (s : State) (p : PortId), s.quiet ∧ s.unheard 0 ∧ s.live = true ∧
      (s.port p).st = .retrain ∧ (s.port p).since + s.portObj p 8 ≤ s.now ∧
      (s.port p).windowPkts = [] ∧ (s.port p).opened = none ∧
      (∀ v, v < 16 → queueOf s.outQ (pv p v) = [])) ∧
    (∃ (s : State) (p : PortId), s.quiet ∧ s.unheard 0 ∧ s.live = true ∧ (s.port p).st = .active
      ∧ (s.port p).gotHbAt + max (s.portObj p 6) (32 * (s.port p).peerHbUnits) ≤ s.now ∧
      s.reactOf (blkPort p) 9 = 0 ∧ (s.port p).windowPkts = [] ∧ (s.port p).opened = none ∧
      (∀ v, v < 16 → queueOf s.outQ (pv p v) = [])) ∧
    (∃ (s : State) (p : PortId) (lane : Fin 4), s.quiet ∧ s.live = true ∧
      (s.port p).st ≠ .disabled ∧ bit (s.port p).retiredLanes lane = false ∧
      (((s.port p).st ≠ .active ∧ (s.port p).st ≠ .exchange ∧ (s.port p).st ≠ .refused) ∨ bit
      (modeLanes (s.port p).mode) lane = false) ∧ s.reactOf (blkPort p) 8 = 17) ∧
    (∃ (s : State) (p : PortId) (lane : Fin 4), s.quiet ∧ s.live = true ∧
      ((s.port p).st = .exchange ∨ (s.port p).st = .refused) ∧ bit (s.port p).retiredLanes
      lane = false ∧ bit (modeLanes (s.port p).mode) lane = true ∧ s.reactOf (blkPort p) 8 = 17)
      :=
  ⟨⟨wDeafRetrain, 3, { nodeId := 6 }, by decide +kernel⟩,
   ⟨wDeafRetrain, 3, by decide +kernel⟩,
   ⟨wDeafActive, 3, by decide +kernel⟩,
   ⟨wRetrain, 3, 2, by decide +kernel⟩,
   ⟨wLaneX, 3, 3, by decide +kernel⟩⟩

/-- What `Obligations.FabricTime` asks for is met. -/
theorem test_meets_FabricTime :
    (∃ (s : State) (p : Nat), s.live = true ∧ s.isRoot = false ∧ s.bestParent = some p ∧
      s.time.parent ≠ some p) ∧
    (∃ (s : State), s.live = true ∧ s.isRoot = false ∧ s.bestParent = none ∧ s.unheard 11) ∧
    (∃ (s : State) (high v : Nat), s.phase = .running ∧ s.isRoot = true ∧ 100 ≤ high ∧ (∀ u,
      s.time.lastPps = some u → u + 500000000 ≤ s.now) ∧ s.time.nextSecond = some v) ∧
    (∃ (s : State) (sec d high : Nat), s.phase = .running ∧ s.isRoot = true ∧ 100 ≤ high ∧ (∀ u,
      s.time.lastPps = some u → u + 500000000 ≤ s.now) ∧ s.time.nextSecond = none ∧
      s.time.now = sec * 1000000000 + d ∧ d < 1000) ∧
    (∃ (s : State), s.phase ≠ .held ∧ s.phase ≠ .dead ∧ s.time.lastPulse < s.time.now /
      1000000000) :=
  ⟨⟨{ wParent with time := { parent := some 4, goodOffsets := 2 } }, 3, by decide +kernel⟩,
   ⟨wLost, by decide +kernel⟩,
   ⟨{ wRoot with now := 505000000 }, 100, 9000000000, by decide +kernel⟩,
   ⟨wRootSlew, 7, 999, 100, by decide +kernel⟩,
   ⟨wPulse, by decide +kernel⟩⟩

/-- What `Obligations.PacketForward` asks for is met. -/
theorem test_meets_PacketForward :
    (∃ (s : State) (row : Fin 17) (vc : Fin 16) (p : Pkt) (q v : Nat), s.live = true ∧ s.quiet ∧
      s.copyHead row vc = none ∧ (row.val = 16 → queueOf s.madeQ vc = []) ∧ s.headOf row
      vc = some p ∧ p.malformed (s.pvcLimit row) = false ∧ p.mode = 0 ∧ p.priv = false ∧ s.hopOf
      row vc p = .out q v ∧ s.inTurn row q v = true ∧ s.portUp q = true) ∧
    (∃ (s : State) (row : Fin 17) (vc : Fin 16) (p : Pkt), s.live = true ∧ s.quiet ∧ s.copyHead
      row vc = none ∧ (row.val = 16 → queueOf s.madeQ vc = []) ∧ s.headOf row vc = some p ∧
      p.malformed (s.pvcLimit row) = false ∧ p.mode = 0 ∧ s.hopOf row vc p = .deliver) :=
  ⟨⟨wPass, 16, 0, wTo 7, 3, 1, by decide +kernel⟩,
   ⟨wHome, 3, 1, { wTo 0 with cw := mkCw 1 0 0 0 0 }, by decide +kernel⟩⟩

/-- What `Obligations.MadeForward` asks for is met. -/
theorem test_meets_MadeForward :
    ∃ (s : State) (vc : Fin 16) (p : Pkt) (q : Nat) (l : List (Pkt × List Nat)), s.live = true ∧
      s.quiet ∧ s.copyHead 16 vc = none ∧ queueOf s.madeQ vc = (p, [q]) :: l ∧ p.priv = false ∧
      s.portUp q = true ∧ s.inTurn 16 q vc = true :=
  ⟨wMade, 1, wTiny, 3, [(wTo 7, [2, 3])], by decide +kernel⟩

/-- What `Obligations.RequestInject` asks for is met. -/
theorem test_meets_RequestInject :
    (∃ (s : State) (n : Nat) (o : Op) (j : Nat) (pth : Path) (pl : Bytes), s.live = true ∧
      s.quiet ∧ s.op n = some o ∧ o.kind ≠ .mcast ∧ o.resend = [] ∧ o.allSent = false ∧
      s.ctxSends o.ctx ∧ s.reqPath (s.ctx o.ctx) = .path j pth ∧ o.payloadAt o.next = some pl ∧
      o.next ∉ o.spoilt ∧ (hasPayload o.kind.code = false ∨ o.lastAt o.next = true) ∧ ahead32
      (s.ctx o.ctx).nextPsn (s.ctx o.ctx).oldest + o.pktPsns o.next ≤ 1024) ∧
    (∃ (s : State) (n : Nat) (o : Op) (j : Nat) (pth : Path) (pl : Bytes) (k : Nat) (r : Reg),
      s.live = true ∧ s.quiet ∧ s.op n = some o ∧ (o.kind = .eager ∨ o.kind = .put) ∧
      o.resend = [] ∧ o.allSent = false ∧ s.ctxSends o.ctx ∧ s.reqPath (s.ctx o.ctx) = .path j
      pth ∧ o.payloadAt o.next = some pl ∧ o.next ∉ o.spoilt ∧ o.lastAt o.next = false ∧ ahead32
      (s.ctx o.ctx).nextPsn (s.ctx o.ctx).oldest + 1 ≤ 1024 ∧ s.keyRegion o.hl o.lkey = some
      (k, r) ∧ r.spilled = false ∧ s.stagingRoom o (o.pktLen (o.next + 4096)) = true ∧
      s.canIssue r.fid r.pasid (r.dma (o.addr + (o.next + 4096)))
      (o.pktLen (o.next + 4096)) = true) ∧
    (∃ (s : State) (n : Nat) (o : Op) (j : Nat) (pth : Path) (pl : Bytes) (psn : BitVec 32)
      (rest : List (BitVec 32)) (u : Unans), s.live = true ∧ s.quiet ∧ s.op n = some o ∧
      o.kind ≠ .mcast ∧ o.resend = psn :: rest ∧ s.ctxSends o.ctx ∧ s.reqPath
      (s.ctx o.ctx) = .path j pth ∧ (s.ctx o.ctx).unans.find? (fun v => v.psn == psn) = some u ∧
      u.kind ≠ 4 ∧ s.resendFirst o.ctx psn = true ∧ o.payloadAt u.off = some pl ∧ u.off ∉
      o.spoilt) ∧
    (∃ (s : State) (n : Nat) (o : Op) (pl : Bytes), s.live = true ∧ s.quiet ∧ s.op n = some o ∧
      o.kind = .mcast ∧ o.allSent = false ∧ sprueValid (Tbl.get 0 s.sprue o.tree) = true ∧
      sprueRoot (Tbl.get 0 s.sprue o.tree) = true ∧ s.member
      (s.ep (bits (fld o.desc 48 8) 29 16)).partition s.nodeId = true ∧
      (s.mcastOut.filter fun m => m.1 == o.tree).length < 4 ∧ o.payloadAt o.next = some pl ∧
      o.next ∉ o.spoilt ∧ o.lastAt o.next = true) :=
  ⟨⟨wInject, 8, { wOp .put with started := false, allSent := false, staged := [(0, zeros 16)] },
    0, pathOf wBook 0, zeros 16, by decide +kernel⟩,
   ⟨wInjectMore, 8, wLongOp, 0, pathOf wBook 0, zeros 4096, 3, wReg, by decide +kernel⟩,
   ⟨wResend, 8, wResendOp, 0, pathOf wBook 0, zeros 16, 39, [], wResendPsn, by decide +kernel⟩,
   ⟨wMcastUp, 8, wMcastOp, zeros 16, by decide +kernel⟩⟩

/-- What `Obligations.PathTimers` asks for is met. -/
theorem test_meets_PathTimers :
    (∃ (s : State) (c : Nat) (path : Fin 4), (s.ctx c).st ≠ .free ∧ (s.ctx c).heat.length = 4 ∧
      (s.ctx c).heatAt.length = 4 ∧ nth 0 (s.ctx c).heatAt path + s.obj 0x4010 2 ≤ s.now) ∧
    (∃ (s : State) (c : Nat) (path : Fin 4) (u : Nat), nth none (s.ctx c).holdUntil path = some
      u ∧ u ≤ s.now) :=
  ⟨⟨wWarm, 5, 0, by decide +kernel⟩,
   ⟨wWarm, 5, 1, 5000000, by decide +kernel⟩⟩

/-- What `Obligations.MulticastReports` asks for is met. -/
theorem test_meets_MulticastReports :
    (∃ (s : State) (i : Nat) (a : Arrival) (k : Nat), s.live = true ∧ s.quiet ∧
      s.delivery[i]? = some a ∧ a.pkt.format = 0 ∧ a.pkt.kind = 5 ∧ a.entry = Tbl.get 0 s.sprue
      a.pkt.tree ∧ sprueValid (Tbl.get 0 s.sprue a.pkt.tree) = true ∧ a.row ∈ sprueKids
      (Tbl.get 0 s.sprue a.pkt.tree) ∧ 1 < sprueChildren (Tbl.get 0 s.sprue a.pkt.tree) ∧ k ∈
      sprueKids (Tbl.get 0 s.sprue a.pkt.tree) ∧ k ≠ a.row ∧ (k = 16 ∨ s.portUp k = true) ∧
      (a.pkt.tree, a.pkt.psn) ∉ s.closedReports) ∧
    (∃ (s : State) (i : Nat) (a : Arrival) (k kk key : Nat) (r : Reg), s.live = true ∧ s.quiet ∧
      s.delivery[i]? = some a ∧ a.bad = false ∧ a.passed = none ∧ a.pkt.format = 1 ∧
      a.pkt.kind = 8 ∧ s.fencedOut a.pkt = false ∧ (s.ep (faEp a.pkt.dstFa)).mcastKey = some key
      ∧ a.pkt.at_ 72 4 = 0 ∧ a.pkt.plen ≠ 0 ∧ a.pkt.offset + a.pkt.plen ≤ a.pkt.at_ 76 4 ∧
      s.grants (s.ep (faEp a.pkt.dstFa)).hl key (s.ep (faEp a.pkt.dstFa)).pd rightWrite
      (a.pkt.at_ 64 8 + a.pkt.offset) a.pkt.plen kk r ∧ r.pool = false ∧ s.canIssue r.fid
      r.pasid (r.dma (a.pkt.at_ 64 8 + a.pkt.offset)) a.pkt.plen = true ∧
      (s.link (fidLink r.fid)).invWait = [] ∧ s.asleep (s.ep (faEp a.pkt.dstFa)).fid = false ∧
      a.entry = Tbl.get 0 s.sprue a.pkt.tree ∧ sprueValid (Tbl.get 0 s.sprue a.pkt.tree) = true
      ∧ 16 ∈ sprueKids (Tbl.get 0 s.sprue a.pkt.tree) ∧ 1 < sprueChildren
      (Tbl.get 0 s.sprue a.pkt.tree) ∧ k ∈ sprueKids (Tbl.get 0 s.sprue a.pkt.tree) ∧ k ≠ 16 ∧
      s.portUp k = true ∧ (a.pkt.tree, a.pkt.psn) ∉ s.closedReports) ∧
    (∃ (s : State) (tree : Fin 4096) (r : ReportRec), s.live = true ∧ Block.quiet
      { s.toBlock with reports := [] } ∧ s.reports = [r] ∧ r.tree = tree.val ∧ r.openedAt +
      r.wait ≤ s.now ∧ sprueRoot (Tbl.get 0 s.sprue tree) = false) :=
  ⟨⟨wReported, 1, wReportIn, 16, by decide +kernel⟩,
   ⟨wCopied, 0, wCopyIn, 2, 3, 2 ^ 24 + 3, wReg, by decide +kernel⟩,
   ⟨wWaited, 6, { tree := 6, key := 77, delivered := 2 ^ 32 + 5, wait := 5000000 },
     by decide +kernel⟩⟩

/-- What `Obligations.SendArrives` asks for is met. -/
theorem test_meets_SendArrives :
    (∃ (s : State) (i : Nat) (a : Arrival) (c : Nat), s.arrives i 1 2 a c ∧ s.takesSilently a c
      ∧ s.sieveCheck (ctxLink c) (s.ep (faEp a.pkt.dstFa)).fid (s.ep (faEp a.pkt.dstFa)).pd
      a.pkt = stOk ∧ a.pkt.msn = (s.ctx c).nextMatch ∧ s.msgKey c a.pkt.msn = none ∧ s.msgKey c
      (a.pkt.msn + 1) = none ∧ s.msg s.nextOp = none ∧ (firstMatch (s.mctx
      (mctxKey (ctxLink c) (a.pkt.at_ 72 2))).posted (BitVec.ofNat 64 (a.pkt.at_ 64 8))
      a.pkt.srcFa).1 = none ∧ s.inflightRoom (s.mctx
      (mctxKey (ctxLink c) (a.pkt.at_ 72 2))).fid = true ∧ s.unexpectedRoom (s.mctx
      (mctxKey (ctxLink c) (a.pkt.at_ 72 2))).fid = true) ∧
    (∃ (s : State) (i : Nat) (a : Arrival) (c : Nat), s.arrives i 1 1 a c ∧ s.takesSilently a c
      ∧ s.sieveCheck (ctxLink c) (s.ep (faEp a.pkt.dstFa)).fid (s.ep (faEp a.pkt.dstFa)).pd
      a.pkt = stOk ∧ a.pkt.at_ 76 4 = 0 ∧ a.pkt.msn = (s.ctx c).nextMatch ∧ s.msgKey c
      a.pkt.msn = none ∧ s.msgKey c (a.pkt.msn + 1) = none ∧ s.msg s.nextOp = none ∧ (firstMatch
      (s.mctx (mctxKey (ctxLink c) (a.pkt.at_ 72 2))).posted (BitVec.ofNat 64 (a.pkt.at_ 64 8))
      a.pkt.srcFa).1 = none ∧ s.inflightRoom (s.mctx
      (mctxKey (ctxLink c) (a.pkt.at_ 72 2))).fid = true ∧ s.unexpectedRoom (s.mctx
      (mctxKey (ctxLink c) (a.pkt.at_ 72 2))).fid = true) ∧
    (∃ (s : State) (i : Nat) (a : Arrival) (c m k : Nat) (p : Posted) (r : Reg) (d : Bytes),
      s.opensMessage i 1 a c m ∧ (firstMatch (s.mctx m).posted
      (BitVec.ofNat 64 (a.pkt.at_ 64 8)) a.pkt.srcFa).1 = some p ∧ a.pkt.plen = a.pkt.at_ 76 4 ∧
      a.pkt.payload.length = a.pkt.at_ 76 4 ∧ d = a.pkt.payload.take p.len ∧ d ≠ [] ∧
      s.plainQueue p.q ∧ p.trace = none ∧ (∀ o ∈ s.ops, o.2.pulls = true → o.2.entry ≠ s.nextOp)
      ∧ s.nextOp ∉ (s.mctx m).unexpected ∧ s.landsIn (ctxLink c) p.lkey p.addr d.length k r) ∧
    (∃ (s : State) (i : Nat) (a : Arrival) (c m k : Nat) (o : OvfBuf) (r : Reg), s.opensMessage
      i 1 a c m ∧ (firstMatch (s.mctx m).posted (BitVec.ofNat 64 (a.pkt.at_ 64 8))
      a.pkt.srcFa).1 = none ∧ s.unexpectedRoom (s.mctx m).fid = true ∧ a.pkt.at_ 76 4 ≠ 0 ∧
      a.pkt.payload ≠ [] ∧ (∀ p ∈ (s.mctx m).overflow, p.past = false) ∧ piecePlace
      (roundUp (a.pkt.at_ 76 4) 64) (s.mctx m).overflow = some ([], o) ∧
      (s.mctx m).overflow.find? (fun p => p.q == o.q && p.idx == o.idx) = some o ∧ s.landsIn
      (ctxLink c) o.lkey (o.addr + o.used + a.pkt.offset) a.pkt.payload.length k r) ∧
    (∃ (s : State) (i : Nat) (a : Arrival) (c m : Nat) (p : Posted), s.opensMessage i 2 a c m ∧
      (firstMatch (s.mctx m).posted (BitVec.ofNat 64 (a.pkt.at_ 64 8)) a.pkt.srcFa).1 = some p ∧
      0 < p.len ∧ (s.queue p.q).notify = false) :=
  ⟨⟨wRtsIn, 1, wRts, 5, by decide +kernel⟩,
   ⟨wEmptyIn, 1, wEmpty, 5, by decide +kernel⟩,
   ⟨wEagerTaken, 1, wEager, 5, 4, 3, wTakes, wReg, List.replicate 16 5#8, by decide +kernel⟩,
   ⟨wEagerKept, 1, wEager, 5, 4, 3, wBuffer, wReg, by decide +kernel⟩,
   ⟨wRtsTaken, 1, wRts, 5, 4, wTakes, by decide +kernel⟩⟩

/-- What `Obligations.AccessArrives` asks for is met. -/
theorem test_meets_AccessArrives :
    (∃ (s : State) (i : Nat) (a : Arrival) (c k : Nat) (r : Reg), s.arrives i 1 3 a c ∧
      s.takesSilently a c ∧ a.pkt.plen ≠ 0 ∧ a.pkt.offset + a.pkt.plen ≤ a.pkt.at_ 76 4 ∧
      s.grants (ctxLink c) (a.pkt.at_ 72 4) (s.targetPd a.pkt) rightWrite
      (a.pkt.at_ 64 8 + a.pkt.offset) a.pkt.plen k r ∧ r.pool = false ∧ s.canIssue r.fid r.pasid
      (r.dma (a.pkt.at_ 64 8 + a.pkt.offset)) a.pkt.plen = true ∧
      (s.link (fidLink r.fid)).invWait = []) ∧
    (∃ (s : State) (i : Nat) (a : Arrival) (c k : Nat) (r : Reg), s.arrives i 1 4 a c ∧
      (s.ctx c).window a.pkt.psn (reqPsns a.pkt) = .fresh ∧ a.pkt.plen = 0 ∧ getRange a.pkt ≠ 0
      ∧ s.grants (ctxLink c) (a.pkt.at_ 72 4) (s.targetPd a.pkt) rightRead
      (a.pkt.at_ 64 8 + a.pkt.offset) (getRange a.pkt) k r ∧ r.pool = false ∧ s.canIssue r.fid
      r.pasid (r.dma (a.pkt.at_ 64 8 + a.pkt.offset)) (getRange a.pkt) = true) ∧
    (∃ (s : State) (i : Nat) (a : Arrival) (c k : Nat) (r : Reg), s.arrives i 1 6 a c ∧
      s.takesSilently a c ∧ a.pkt.plen = 0 ∧ atomicOp a.pkt ≤ 7 ∧ s.grants (ctxLink c)
      (a.pkt.at_ 72 4) (s.targetPd a.pkt) rightAtomic (a.pkt.at_ 64 8 + a.pkt.offset)
      (atomicWidth a.pkt / 8) k r ∧ (a.pkt.at_ 64 8 + a.pkt.offset) %
      (atomicWidth a.pkt / 8) = 0 ∧ r.pool = true ∧ s.atomics.length +
      s.atomicsBusy < s.atomicCacheSize) :=
  ⟨⟨wPutIn, 1, wPut, 5, 3, wReg, by decide +kernel⟩,
   ⟨wGetIn, 1, wGet, 5, 3, wReg, by decide +kernel⟩,
   ⟨wAddIn, 1, wAdd, 5, 4, { wReg with pool := true, poolWord := 6 }, by decide +kernel⟩⟩

/-- What `Obligations.PutAnswered` asks for is met. -/
theorem test_meets_PutAnswered :
    (∃ (s : State) (i : Nat) (a : Arrival) (c : Nat) (u : Unans) (o : Op), s.arrives i 0 1 a c ∧
      (s.ctx c).unans = [u] ∧ u.kind = 3 ∧ ackCovers a.pkt.psn (a.pkt.at_ 56 8) u.psn = true ∧
      u.timerSent ≠ some s.now ∧ s.op u.op = some o ∧ o.kind = .put ∧ o.ctx = c ∧
      o.allSent = true ∧ o.status = stOk ∧ o.closed = false ∧ o.trace = none ∧ s.plainQueue o.q)
      ∧
    (∃ (s : State) (i : Nat) (a : Arrival) (c : Nat) (u : Unans) (o : Op), s.arrives i 0 2 a c ∧
      (s.ctx c).unans = [u] ∧ u.kind = 3 ∧ u.psn = a.pkt.psn ∧ u.timerSent ≠ some s.now ∧
      a.pkt.at_ 51 1 = 2 ∧ a.pkt.at_ 50 1 ≠ stOk ∧ a.pkt.at_ 50 1 ≠ stConnError ∧ a.pkt.at_ 50
      1 ≠ stRemoteAbort ∧ s.op u.op = some o ∧ o.kind = .put ∧ o.ctx = c ∧ o.allSent = true ∧
      o.status = stOk ∧ o.closed = false ∧ o.trace = none ∧ s.plainQueue o.q ∧ s.ctrEvent = [])
      ∧
    (∃ (s : State) (i : Nat) (a : Arrival) (c : Nat) (u : Unans), s.arrives i 0 2 a c ∧
      (s.ctx c).unans = [u] ∧ u.psn = a.pkt.psn ∧ a.pkt.at_ 51 1 = 1 ∧ a.pkt.at_ 56 4 ≠ 0 ∧
      ((s.ctx c).rnrLimit = 15 ∨ u.rnrCount + 1 ≤ (s.ctx c).rnrLimit)) :=
  ⟨⟨wAckIn, 1, wAck, 5, wUnans 3, wOp .put, by decide +kernel⟩,
   ⟨wNakIn, 1, wNak, 5, wUnans 3, wOp .put, by decide +kernel⟩,
   ⟨wRnrIn, 1, wRnr, 5, wUnans 3, by decide +kernel⟩⟩

/-- What `Obligations.ResponsesTaken` asks for is met. -/
theorem test_meets_ResponsesTaken :
    (∃ (s : State) (i : Nat) (a : Arrival) (c k : Nat) (u : Unans) (o : Op) (r : Reg), s.arrives
      i 1 5 a c ∧ (s.ctx c).unans.find? (fun v => v.psn == a.pkt.psn) = some u ∧ u.kind = 4 ∧
      u.timerSent ≠ some s.now ∧ a.pkt.offset = u.off ∧ a.pkt.plen = u.len ∧ a.pkt.offset +
      a.pkt.plen ≤ a.pkt.at_ 76 4 ∧ u.len ≠ 0 ∧ s.op u.op = some o ∧ o.allSent = false ∧
      o.closed = false ∧ o.ctx = c ∧ s.keyRegion o.hl o.lkey = some (k, r) ∧ r.spilled = false ∧
      r.pool = false ∧ (s.link (fidLink r.fid)).invWait = [] ∧ s.canIssue r.fid r.pasid
      (r.dma (o.addr + u.off)) u.len = true) ∧
    (∃ (s : State) (i : Nat) (a : Arrival) (c : Nat) (u : Unans) (o : Op), s.arrives i 1 7 a c ∧
      (s.ctx c).unans = [u] ∧ u.psn = a.pkt.psn ∧ u.kind = 6 ∧ a.pkt.plen = 8 ∧
      u.timerSent ≠ some s.now ∧ s.op u.op = some o ∧ o.kind = .atomic ∧ o.ctx = c ∧
      o.allSent = true ∧ o.status = stOk ∧ o.closed = false ∧ o.trace = none ∧ s.plainQueue o.q)
      ∧
    (∃ (s : State) (i : Nat) (a : Arrival) (c n : Nat) (o : Op), s.arrives i 0 3 a c ∧
      (s.ctx c).window a.pkt.psn 1 = .fresh ∧ s.ops = [(n, o)] ∧ o.kind = .rts ∧
      o.started = true ∧ o.closed = false ∧ o.ctx = c ∧ o.msn = BitVec.ofNat 32 (a.pkt.at_ 48 4)
      ∧ o.trace = none ∧ (∀ u ∈ (s.ctx c).unans, u.op ≠ n) ∧ s.plainQueue o.q ∧ s.ctrEvent = [])
      :=
  ⟨⟨wRespIn, 1, wResp, 5, 3, { wUnans 4 with psn := 40, off := 4096, len := 16 }, wGetOp, wReg,
    by decide +kernel⟩,
   ⟨wOldIn, 1, wOld, 5, wUnans 6, wOp .atomic, by decide +kernel⟩,
   ⟨wFinIn, 1, wFin, 5, 8, wRtsOp, by decide +kernel⟩⟩

/-- What `Obligations.UnroutableTaken` asks for is met. -/
theorem test_meets_UnroutableTaken :
    (∃ (s : State) (i : Nat) (a : Arrival) (c : Nat), s.live = true ∧ s.quiet ∧
      s.delivery[i]? = some a ∧ a.pkt.format = 0 ∧ a.pkt.kind = 4 ∧ s.reportedCtx a.pkt = some c
      ∧ (s.ctx c).spilled = false ∧ (s.ctx c).retryLimit ≤ (s.ctx c).tries ∧
      (s.ctx c).holdUntil.length = 4) ∧
    (∃ (s : State) (i : Nat) (a : Arrival), s.live = true ∧ s.quiet ∧ s.delivery[i]? = some a ∧
      a.pkt.format = 0 ∧ a.pkt.kind = 4 ∧ s.reportedCtx a.pkt = none) :=
  ⟨⟨wUnroutableIn, 1, wUnroutable, 5, by decide +kernel⟩,
   ⟨wStrayReport, 1, wUnroutable, by decide +kernel⟩⟩

/-- What `Obligations.ConnectionTimers` asks for is met. -/
theorem test_meets_ConnectionTimers :
    (∃ (s : State) (c u : Nat), s.live = true ∧ s.quiet ∧ (s.ctx c).st = .active ∧
      (s.ctx c).ackSince = some u ∧ u + s.obj (0x2030 + ctxLink c) 2 ≤ s.now) ∧
    (∃ (s : State) (c v : Nat) (u : Unans) (o : Op), s.live = true ∧ s.quiet ∧
      (s.ctx c).st = .active ∧ (s.ctx c).spilled = false ∧ (s.ctx c).timerAt = some v ∧ v +
      (s.ctx c).rto * 1000 * 2 ^ (s.ctx c).tries ≤ s.now ∧ (s.ctx c).unans = [u] ∧
      u.rnrUntil = none ∧ (s.ctx c).tries < (s.ctx c).retryLimit ∧ s.op u.op = some o ∧ u.psn ∉
      o.resend ∧ (hasPayload u.kind = false ∨ u.len = 0)) ∧
    (∃ (s : State) (c v k : Nat) (u : Unans) (o : Op) (r : Reg), s.live = true ∧ s.quiet ∧
      (s.ctx c).st = .active ∧ (s.ctx c).spilled = false ∧ (s.ctx c).timerAt = some v ∧ v +
      (s.ctx c).rto * 1000 * 2 ^ (s.ctx c).tries ≤ s.now ∧ (s.ctx c).unans = [u] ∧
      u.rnrUntil = none ∧ (s.ctx c).tries < (s.ctx c).retryLimit ∧ s.op u.op = some o ∧ u.psn ∉
      o.resend ∧ hasPayload u.kind = true ∧ u.len ≠ 0 ∧ s.rereads o u k r) ∧
    (∃ (s : State) (c w : Nat) (u : Unans) (o : Op), s.live = true ∧ s.quiet ∧
      (s.ctx c).st = .active ∧ (s.ctx c).unans = [u] ∧ u.rnrUntil = some w ∧ w ≤ s.now ∧ s.op
      u.op = some o ∧ u.psn ∉ o.resend ∧ (hasPayload u.kind = false ∨ u.len = 0)) ∧
    (∃ (s : State) (c w k : Nat) (u : Unans) (o : Op) (r : Reg), s.live = true ∧ s.quiet ∧
      (s.ctx c).st = .active ∧ (s.ctx c).unans = [u] ∧ u.rnrUntil = some w ∧ w ≤ s.now ∧ s.op
      u.op = some o ∧ u.psn ∉ o.resend ∧ hasPayload u.kind = true ∧ u.len ≠ 0 ∧ s.rereads o u k
      r) ∧
    (∃ (s : State) (c n w : Nat) (o : Op), s.live = true ∧ s.quiet ∧ s.ops = [(n, o)] ∧
      o.ctx = c ∧ o.kind = .rts ∧ o.started = true ∧ o.closed = false ∧ o.rdvUntil = some w ∧
      w ≤ s.now ∧ o.trace = none ∧ (∀ u ∈ (s.ctx c).unans, u.op ≠ n) ∧ s.plainQueue o.q) :=
  ⟨⟨wAckDue, 5, 4999000, by decide +kernel⟩,
   ⟨wRto, 5, 4872000, wUnans 4, wOp .get, by decide +kernel⟩,
   ⟨wRtoPut, 5, 4872000, 3, wLate, wOp .put, wReg, by decide +kernel⟩,
   ⟨wRnrOver, 5, 5000000, { wUnans 4 with rnrUntil := some 5000000 }, wOp .get,
     by decide +kernel⟩,
   ⟨wRnrPut, 5, 5000000, 3, { wLate with rnrUntil := some 5000000 }, wOp .put, wReg,
     by decide +kernel⟩,
   ⟨wRdv, 5, 8, 5000000, wRtsOp, by decide +kernel⟩⟩

/-- What `Obligations.FillsAndCopies` asks for is met. -/
theorem test_meets_FillsAndCopies :
    (∃ (s : State) (c : Nat) (d : DmaReq), s.live = true ∧ s.quiet ∧ (s.ctx c).st ≠ .free ∧
      (s.ctx c).spilled = true ∧ (s.ctx c).filling = true ∧ Tbl.count (fun _ x => x.cached)
      s.ctxs < s.ctxCacheSize ∧ s.fillsAlone false c d) ∧
    (∃ (s : State) (k : Nat) (d : DmaReq), s.live = true ∧ s.quiet ∧ (s.reg k).live = true ∧
      (s.reg k).spilled = true ∧ (s.reg k).filling = true ∧ Tbl.count (fun _ x => x.cached)
      s.regs < s.regCacheSize ∧ s.fillsAlone true k d) ∧
    (∃ (s : State) (tag n off : Nat) (d : DmaReq) (o : Op) (bs : Bytes), s.live = true ∧ s.quiet
      ∧ s.dma.find? (fun e => e.tag == tag && !e.purpose.fills) = some d ∧ d.purpose = .payload
      n off ∧ bs.length = d.len ∧ s.op n = some o ∧ (s.link d.hl).invWait = [] ∧ s.onLink
      d = true) ∧
    (∃ (s : State) (c k q idx po kf kt : Nat) (e : InFlight) (r : Posted) (o : OvfBuf)
      (f g : Reg), s.live = true ∧ s.quiet ∧ s.inflight = [(k, e)] ∧ e.ctx = c ∧
      e.copying = true ∧ e.recv = some r ∧ (s.queue r.q).notify = false ∧ e.got ≠ e.msgLen ∧
      e.piece = some (q, idx, po) ∧ (∀ b ∈ (s.mctx e.mctx).overflow, b.past = false) ∧
      s.ctrEvent = [] ∧ s.pieceOf e = some (o, po) ∧ s.keyRegion e.hl o.lkey = some (kf, f) ∧
      f.spilled = false ∧ s.keyRegion e.hl r.lkey = some (kt, g) ∧ g.spilled = false ∧
      (s.link (fidLink g.fid)).invWait = []) :=
  ⟨⟨wFillCtx, 5, wFillRead false 5, by decide +kernel⟩,
   ⟨wFillReg, 3, wFillRead true 3, by decide +kernel⟩,
   ⟨wReading, 4, 8, 0, wRead, wOp .put, [1, 2, 3], by decide +kernel⟩,
   ⟨wCopying, 5, 8, 2, 9, 0, 3, 3, wMsg, wRecv, wLent, wReg, wReg, by decide +kernel⟩⟩

/-- What `Obligations.RingsAndImmediates` asks for is met. -/
theorem test_meets_RingsAndImmediates :
    (∃ (s : State) (q : Nat) (e : Bytes), s.quiet ∧ (s.queue q).ty < 2 ∧ s.readsNow q ∧
      (s.queue q).taken = [] ∧ entOwner e = true ∧ entPhase e = (s.queue q).phase ∧
      (s.queue q).c + 1 < 2 ^ (s.queue q).log ∧ entOpcode e ≤ 8 ∧
      (s.fn (s.queue q).fid).trace.on = false) ∧
    (∃ (s : State) (q : Nat), s.quiet ∧ (s.queue q).ty < 2 ∧ s.readsNow q ∧
      (s.queue q).taken.length < 8) ∧
    (∃ (s : State) (q : Nat) (l : List Bytes), s.quiet ∧ (s.queue q).ty = 2 ∧ s.readsNow q ∧
      (s.queue q).eqFree < 8 ∧ returned (l.take (8 - (s.queue q).eqFree)) ≠ 0 ∧
      (s.queue q).parked = [] ∧ (∀ f, (s.fn f).lost = 0) ∧ (∀ e ∈ s.queues,
      ¬(e.2.eq = q ∧ e.2.notify = true))) ∧
    (∃ (s : State) (q : Nat) (d : Taken), s.headIs q 0 d ∧ (s.queue q).ty < 2 ∧ headerClear
      d.bytes false ∧ fld d.bytes 4 4 = 0 ∧ s.linkOpen (s.queue q).fid) ∧
    (∃ (s : State) (q : Nat) (d : Taken), s.headIs q 8 d ∧ (s.queue q).ty = 0 ∧ headerClear
      d.bytes false ∧ fld d.bytes 4 4 = 0 ∧ s.linkOpen (s.queue q).fid ∧
      (s.queue q).outstanding = []) :=
  ⟨⟨wPoll, 2, wNop, by decide +kernel⟩,
   ⟨wPoll, 2, by decide +kernel⟩,
   ⟨wEqRead, 2, [wNop, wNop, zeros 64], four (by decide +kernel) ⟨by decide +kernel,
     by decide +kernel, fun _ => rfl, by decide +kernel⟩⟩,
   ⟨wNopHead, 2, wTaken wNop, by decide +kernel⟩,
   ⟨wFenceHead, 2, wTaken wFence, by decide +kernel⟩⟩

/-- What `Obligations.SendDescriptors` asks for is met. -/
theorem test_meets_SendDescriptors :
    (∃ (s : State) (q k : Nat) (d : Taken) (r : Reg), s.headIs q 1 d ∧ (s.queue q).ty = 0 ∧
      headerClear d.bytes false ∧ s.ctxServes q d.bytes ∧ clearAt d.bytes
      [(26, 2), (36, 4), (48, 16)] ∧ s.obj (0x2030 + (s.queue q).hl) 5 < fld d.bytes 28 4 ∧
      s.bufferFor q (fld d.bytes 32 4) (fld d.bytes 40 8) (fld d.bytes 28 4) (some rightRead) k
      r) ∧
    (∃ (s : State) (q k : Nat) (d : Taken) (r : Reg), s.headIs q 1 d ∧ (s.queue q).ty = 0 ∧
      headerClear d.bytes false ∧ s.ctxServes q d.bytes ∧ clearAt d.bytes
      [(26, 2), (36, 4), (48, 16)] ∧ fld d.bytes 28 4 ≤ s.obj (0x2030 + (s.queue q).hl) 5 ∧ fld
      d.bytes 28 4 ≠ 0 ∧ s.bufferFor q (fld d.bytes 32 4) (fld d.bytes 40 8) (fld d.bytes 28 4)
      none k r ∧ s.payloadReads q r (min 4096 (fld d.bytes 28 4))) ∧
    (∃ (s : State) (q : Nat) (d : Taken), s.headIs q 1 d ∧ (s.queue q).ty = 0 ∧ headerClear
      d.bytes false ∧ s.ctxServes q d.bytes ∧ clearAt d.bytes [(26, 2), (36, 4), (48, 16)] ∧ fld
      d.bytes 28 4 = 0) ∧
    (∃ (s : State) (q k : Nat) (d : Taken) (r : Reg), s.headIs q 2 d ∧ (s.queue q).ty = 0 ∧
      headerClear d.bytes false ∧ s.ctxServes q d.bytes ∧ clearAt d.bytes
      [(36, 4), (48, 8), (56, 8)] ∧ fld d.bytes 28 4 ≠ 0 ∧ s.bufferFor q (fld d.bytes 32 4)
      (fld d.bytes 40 8) (fld d.bytes 28 4) none k r ∧ s.payloadReads q r
      (min 4096 (fld d.bytes 28 4))) ∧
    (∃ (s : State) (q k : Nat) (d : Taken) (r : Reg), s.headIs q 2 d ∧ (s.queue q).ty = 0 ∧
      headerClear d.bytes true ∧ clearAt d.bytes [(4, 4), (24, 4), (56, 8)] ∧ bits
      (fld d.bytes 36 4) 31 12 = 0 ∧ bits (fld d.bytes 48 8) 15 14 = 0 ∧ bits (fld d.bytes 48 8)
      63 30 = 0 ∧ (s.ep (bits (fld d.bytes 48 8) 29 16)).live = true ∧
      (s.ep (bits (fld d.bytes 48 8) 29 16)).fid = (s.queue q).fid ∧
      (s.ep (bits (fld d.bytes 48 8) 29 16)).pd = (s.queue q).pd ∧ fld d.bytes 28 4 ≠ 0 ∧
      s.bufferFor q (fld d.bytes 32 4) (fld d.bytes 40 8) (fld d.bytes 28 4) none k r ∧
      s.payloadReads q r (min 4096 (fld d.bytes 28 4))) ∧
    (∃ (s : State) (q k : Nat) (d : Taken) (r : Reg), s.headIs q 3 d ∧ (s.queue q).ty = 0 ∧
      headerClear d.bytes false ∧ s.ctxServes q d.bytes ∧ clearAt d.bytes [(36, 4), (48, 16)] ∧
      fld d.bytes 28 4 ≠ 0 ∧ s.bufferFor q (fld d.bytes 32 4) (fld d.bytes 40 8)
      (fld d.bytes 28 4) (some rightLocalWrite) k r) ∧
    (∃ (s : State) (q : Nat) (d : Taken), s.headIs q 4 d ∧ (s.queue q).ty = 0 ∧ headerClear
      d.bytes false ∧ s.ctxServes q d.bytes ∧ clearAt d.bytes [(32, 8), (56, 8)] ∧ bits
      (fld d.bytes 28 4) 31 6 = 0 ∧ bits (fld d.bytes 28 4) 3 0 ≤ 7) :=
  ⟨⟨wSendBigHead, 2, 3, wTaken wSendBig, wReg, by decide +kernel⟩,
   ⟨wSendHead, 2, 3, wTaken wSend, wReg, four (by decide +kernel) (four (by decide +kernel)
     ⟨by decide +kernel, by decide +kernel, (fun _ h => nomatch h), by decide +kernel,
     by decide +kernel⟩)⟩,
   ⟨wSendNoneHead, 2, wTaken wSendNone, by decide +kernel⟩,
   ⟨wPutHead, 2, 3, wTaken wPutD, wReg, four (by decide +kernel) ⟨by decide +kernel,
     by decide +kernel, by decide +kernel, ⟨by decide +kernel, by decide +kernel,
     (fun _ h => nomatch h), by decide +kernel, by decide +kernel⟩⟩⟩,
   ⟨wMcastHead, 2, 3, wTaken wMcastD, wReg, four (by decide +kernel) (four (by decide +kernel)
     (four (by decide +kernel) ⟨by decide +kernel, by decide +kernel, (fun _ h => nomatch h),
     by decide +kernel, by decide +kernel⟩))⟩,
   ⟨wGetHead, 2, 3, wTaken wGetD, wReg, by decide +kernel⟩,
   ⟨wAtomicHead, 2, wTaken wAtomicD, by decide +kernel⟩⟩

/-- What `Obligations.ReceiveDescriptors` asks for is met. -/
theorem test_meets_ReceiveDescriptors :
    (∃ (s : State) (q : Nat) (d : Taken), s.headIs q 5 d ∧ (s.queue q).ty = 1 ∧ headerClear
      d.bytes false ∧ clearAt d.bytes [(4, 4), (56, 8)] ∧ bits (fld d.bytes 32 4) 31 18 = 0 ∧
      bits (fld d.bytes 32 4) 17 16 ≠ 3 ∧ s.listServes q d.bytes ∧ (fld d.bytes 52 4 = 0 ∨ ∃ k
      r, s.bufferFor q (fld d.bytes 48 4) (fld d.bytes 40 8) (fld d.bytes 52 4)
      (some rightLocalWrite) k r) ∧ (s.mctx
      (mctxKey (s.queue q).hl (fld d.bytes 32 2))).unexpected = []) ∧
    (∃ (s : State) (q k : Nat) (d : Taken) (r : Reg), s.headIs q 6 d ∧ (s.queue q).ty = 1 ∧
      headerClear d.bytes false ∧ clearAt d.bytes [(4, 4), (16, 16), (36, 4), (56, 8)] ∧ bits
      (fld d.bytes 32 4) 31 16 = 0 ∧ s.listServes q d.bytes ∧ fld d.bytes 40 8 % 64 = 0 ∧ fld
      d.bytes 52 4 % 64 = 0 ∧ 16384 ≤ fld d.bytes 52 4 ∧ fld d.bytes 52 4 ≤ 2 ^ 30 ∧ s.bufferFor
      q (fld d.bytes 48 4) (fld d.bytes 40 8) (fld d.bytes 52 4) (some rightLocalWrite) k r) ∧
    (∃ (s : State) (q i : Nat) (d : Taken), s.headIs q 7 d ∧ (s.queue q).ty = 0 ∧ headerClear
      d.bytes false ∧ clearAt d.bytes [(4, 4), (56, 8)] ∧ bits (fld d.bytes 16 8) 31 10 = 0 ∧
      i = bits (fld d.bytes 16 8) 9 0 ∧ (s.mould i).st = .valid ∧ (s.mould i).doomed = false ∧
      (s.queue q).hl = (s.mould i).hostLink ∧ fld d.bytes 28 4 = (s.mould i).elements ∧
      BitVec.ofNat 32 (fld d.bytes 20 4) = (s.mould i).nextSeq ∧ ((s.mould i).srcBytes = 0 ∨ ∃ k
      r, s.bufferFor q (fld d.bytes 24 4) (fld d.bytes 40 8) (s.mould i).srcBytes none k r) ∧
      ((s.mould i).dstBytes = 0 ∨ ∃ k r, s.bufferFor q (fld d.bytes 32 4) (fld d.bytes 48 8)
      (s.mould i).dstBytes (some rightLocalWrite) k r) ∧ bit (s.quota (s.queue q).hl 16)
      (s.mould i).partition = true ∧ s.member (s.mould i).partition s.nodeId = true ∧ (∀ w ∈
      (s.mould i).trees, sprueValid (s.sprueOf w) = true ∧ sprueLocal (s.sprueOf w) = true)) :=
  ⟨⟨wRecvHead, 2, wTaken wRecvD, four (by decide +kernel) ⟨by decide +kernel, by decide +kernel,
    by decide +kernel, .inr ⟨3, wReg, by decide +kernel⟩, by decide +kernel⟩⟩,
   ⟨wLendHead, 2, 3, wTaken wLendD, wReg, by decide +kernel⟩,
   ⟨wPourHead, 2, 9, wTaken wPourD, four (by decide +kernel) (four (by decide +kernel)
     ⟨by decide +kernel, by decide +kernel, by decide +kernel, .inr ⟨3, wReg, by decide +kernel⟩,
     .inr ⟨3, wReg, by decide +kernel⟩, by decide +kernel⟩)⟩⟩

/-- What `Obligations.PourSteps` asks for is met. -/
theorem test_meets_PourSteps :
    (∃ (s : State) (i : Fin 1024) (p : Pour) (t : Step), s.stepIs i sopNop p t ∧ p.next +
      1 < (s.mould i).stepCount ∧ (s.fn p.fid).trace.stepOn = false) ∧
    (∃ (s : State) (i : Fin 1024) (p : Pour) (t : Step) (k : Nat) (r : Reg), s.stepIs i
      sopCopyIn p t ∧ t.len ≠ 0 ∧ s.namesRegion p.hl (fld p.desc 24 4) k r ∧ s.linkOpen r.fid) ∧
    (∃ (s : State) (i : Fin 1024) (p : Pour) (t : Step) (k : Nat) (r : Reg), s.stepIs i
      sopCopyOut p t ∧ t.len ≠ 0 ∧ s.namesRegion p.hl (fld p.desc 32 4) k r ∧ r.pool = false ∧
      s.linkOpen r.fid) ∧
    (∃ (s : State) (i : Fin 1024) (p : Pour) (t : Step), s.stepIs i sopSend p t ∧ (peerNode
      ((s.mould i).peer t.arg) = s.nodeId ∨ (pathOf
      (s.bookOf (peerNode ((s.mould i).peer t.arg)))
      (peerPath ((s.mould i).peer t.arg))).valid = true)) ∧
    (∃ (s : State) (i : Fin 1024) (p : Pour) (t : Step), s.stepIs i sopRecv p t) ∧
    (∃ (s : State) (i : Fin 1024) (p : Pour) (t : Step), s.stepIs i sopCombine p t) ∧
    (∃ (s : State) (i : Fin 1024) (p : Pour) (t : Step), s.stepIs i sopGather p t) ∧
    (∃ (s : State) (i : Fin 1024) (p : Pour) (t : Step), s.stepIs i sopMcast p t ∧ s.stepRoot
      t = true) :=
  ⟨⟨wAt0, 9, wArmed, wTheStep wS0, by decide +kernel⟩,
   ⟨wAt1, 9, wArmed, wTheStep wS1, 3, wReg, by decide +kernel⟩,
   ⟨wAt2, 9, wArmed, wTheStep wS2, 3, wReg, by decide +kernel⟩,
   ⟨wAt3, 9, wArmed, wTheStep wS3, by decide +kernel⟩,
   ⟨wAt4, 9, wArmed, wTheStep wS4, by decide +kernel⟩,
   ⟨wAt5, 9, wArmed, wTheStep wS5, by decide +kernel⟩,
   ⟨wAt6, 9, wArmed, wTheStep wS6, by decide +kernel⟩,
   ⟨wAt7, 9, wArmed, wTheStep wS7, by decide +kernel⟩⟩

/-- What `Obligations.PourLife` asks for is met. -/
theorem test_meets_PourLife :
    (∃ (s : State) (i : Fin 1024) (p : Pour) (n : Nat), s.live = true ∧ s.quiet ∧
      (s.mould i).st = .valid ∧ (s.mould i).pours = [p] ∧ p.armed = false ∧
      (s.mould i).broken = none ∧ (s.mould i).held = [] ∧ s.engineFor n p.hl) ∧
    (∃ (s : State) (i : Fin 1024) (p : Pour) (r : StepRun), s.live = true ∧ s.quiet ∧
      (s.mould i).pours = [p] ∧ p.armed = true ∧ p.running = [r] ∧
      p.next = (s.mould i).stepCount ∧ s.stepMet i p r ∧ (s.mould i).doomed = false ∧
      (s.fn p.fid).trace.stepOn = false ∧ (s.fn p.fid).trace.stepPending = none ∧ p.trace = none
      ∧ s.plainQueue p.q) :=
  ⟨⟨wArm, 9, wPour, 0, by decide +kernel⟩,
   ⟨wLast, 9, wLastRun, ⟨0, true, 4⟩, four (by decide +kernel) ⟨by decide +kernel,
     by decide +kernel, .inr (.inr (.inr (.inr (.inr (by decide +kernel))))),
     by decide +kernel⟩⟩⟩

/-- What `Obligations.PourPackets` asks for is met. -/
theorem test_meets_PourPackets :
    (∃ (s : State) (n k : Nat) (a : Arrival) (q : Pour), s.live = true ∧ s.quiet ∧
      s.delivery[n]? = some a ∧ a.pkt.format = 1 ∧ a.pkt.kind = 9 ∧ a.pkt.mode = 0 ∧
      (s.mould a.pkt.mouldIdx).st = .valid ∧ s.member a.pkt.partition
      (faNode a.pkt.srcFa) = true ∧ s.member a.pkt.partition s.nodeId = true ∧
      (s.mould a.pkt.mouldIdx).pours = [q] ∧ q.armed = true ∧ q.seq = a.pkt.pourSeq ∧
      s.landingStep (s.mould a.pkt.mouldIdx) a.pkt.slotAddr a.pkt.plen = some k ∧ a.pkt.slotAddr
      + a.pkt.plen ≤ ((s.mould a.pkt.mouldIdx).step k).addrA +
      ((s.mould a.pkt.mouldIdx).step k).len ∧ (∀ r ∈ q.landed, overlaps r.1 r.2 a.pkt.slotAddr
      a.pkt.plen = false)) ∧
    (∃ (s : State) (n i : Nat) (a : Arrival), s.live = true ∧ s.quiet ∧ s.delivery[n]? = some a
      ∧ a.pkt.format = 0 ∧ a.pkt.kind = 6 ∧ a.pkt.at_ 50 1 = 1 ∧ a.pkt.mode = 0 ∧ i = bits
      (a.pkt.at_ 48 2) 9 0 ∧ (s.mould i).st = .valid ∧ (s.mould i).armed = none ∧
      (s.mould i).nextPour = a.pkt.psn ∧ (s.mould i).broken = none ∧ (s.mould i).peerCount = 0 ∧
      (s.mould i).trees = []) ∧
    (∃ (s : State) (i : Fin 1024) (p : Pour), s.live = true ∧ s.quiet ∧ (s.mould i).pours = [p]
      ∧ p.armed = true ∧ p.lastDoneAt + p.watchdog * 1000 ≤ s.now ∧ (s.mould i).doomed = false ∧
      (s.mould i).peerCount = 0 ∧ (s.mould i).trees = [] ∧ (s.fn p.fid).trace.stepPending = none
      ∧ p.trace = none ∧ s.evtOn p.fid 10 = false ∧ s.plainQueue p.q) :=
  ⟨⟨wDataIn, 1, 0, wData, wArmed, by decide +kernel⟩,
   ⟨wBreakIn, 1, 9, wBreak, by decide +kernel⟩,
   ⟨wDog, 9, { wArmed with running := [⟨0, false, 4⟩] }, by decide +kernel⟩⟩

/-- What `Obligations.CommandsProtection` asks for is met. -/
theorem test_meets_CommandsProtection :
    (∃ (s : State) (hl : HostId) (f : FnId), s.cmdReady (fidOf hl f) [] ∧ s.within (fidOf hl f)
      4 0x08 (Tbl.count (fun _ p => p.live && p.fid == fidOf hl f) s.pds) (Tbl.count
      (fun k p => k / 2 ^ 20 == hl.val && p.live) s.pds) 1 = true ∧ s.pd
      (pdKey hl (s.link hl).nextPd) = {} ∧ 0 < (s.link hl).nextPd ∧ (s.link hl).nextPd < 2 ^ 20)
      ∧
    (∃ (s : State) (hl : HostId) (f : FnId), s.cmdReady (fidOf hl f) [field 19 0] ∧ s.pdOk
      (fidOf hl f) ((s.fn (fidOf hl f)).arg 0) = true ∧ s.pdBound hl
      ((s.fn (fidOf hl f)).arg 0) = false) ∧
    (∃ (s : State) (hl : HostId) (f : FnId) (pd part : Nat), s.cmdReady (fidOf hl f) [field 13 0
      + field 15 15, field 19 0 + field 35 32] ∧ bit ((s.fn (fidOf hl f)).arg 0) 15 = true ∧
      pd = bits ((s.fn (fidOf hl f)).arg 1) 19 0 ∧ part = s.epPartition (fidOf hl f)
      (bits ((s.fn (fidOf hl f)).arg 1) 35 32) ∧ s.within (fidOf hl f) 3 0x04 (Tbl.count
      (fun _ e => e.live && e.fid == fidOf hl f) s.eps) (Tbl.count
      (fun _ e => e.live && e.hl == hl.val) s.eps) 1 = true ∧ 0 < s.quota hl 3 ∧ s.ep
      (s.quota hl 2) = {} ∧ s.pdOk (fidOf hl f) pd = true ∧
      (f.val ≠ 0 ∨ bit (s.quota hl 16) part = true)) ∧
    (∃ (s : State) (hl : HostId) (f : FnId), s.cmdReady (fidOf hl f) [field 13 0] ∧ s.epOf
      (fidOf hl f) ((s.fn (fidOf hl f)).arg 0) = true ∧ (∀ x ∈ s.ctxs,
      x.2.localEp = (s.fn (fidOf hl f)).arg 0 → x.2.st = .free)) ∧
    (∃ (s : State) (hl : HostId) (f : FnId) (e key k : Nat) (r : Reg), s.cmdReady (fidOf hl f)
      [field 13 0, field 31 0] ∧ e = (s.fn (fidOf hl f)).arg 0 ∧ key = (s.fn (fidOf hl f)).arg 1
      ∧ s.epOf (fidOf hl f) e = true ∧ key ≠ 0 ∧ s.keyCheck hl key = .region k r ∧
      r.spilled = false ∧ r.pool = false ∧ r.pd = (s.ep e).pd) :=
  ⟨⟨{ wNoArgs with links := (0, { st := .dlActive, perstHigh := true, ready := true, nextPd :=
    1048575 }) :: wNoArgs.links.drop 1}, 0, 0, by decide +kernel⟩,
   ⟨{ wPdArg with pds := [(1, { live := true }), (9, { live := true })] }, 0, 0,
     by decide +kernel⟩,
   ⟨wEpArgs, 0, 0, 1, 2, by decide +kernel⟩,
   ⟨wEpArg, 0, 0, by decide +kernel⟩,
   ⟨wBindArgs, 0, 0, 1, 0x01000003, 3, wReg, by decide +kernel⟩⟩

/-- What `Obligations.CommandsConnection` asks for is met. -/
theorem test_meets_CommandsConnection :
    (∃ (s : State) (hl : HostId) (f : FnId) (n : Nat), s.cmdReady (fidOf hl f) [field 13 0,
      field 31 0, field 47 0 + field 63 63] ∧ s.epOf (fidOf hl f)
      ((s.fn (fidOf hl f)).arg 0) = true ∧ bit ((s.fn (fidOf hl f)).arg 2) 63 = true ∧
      (s.link hl).ctxPantry.count = n ∧ 0 < n ∧ s.within (fidOf hl f) 5 0x0C (Tbl.count (fun _ x
      => x.fid == fidOf hl f && x.st != .free) s.ctxs) (Tbl.count (fun k x => ctxLink k ==
      hl.val && x.st != .free) s.ctxs) 1 = true ∧ (∀ i, i < n →
      (s.ctx (hl * 2 ^ 24 + i)).st = .free) ∧ Tbl.count (fun _ x => x.cached)
      s.ctxs < s.ctxCacheSize) ∧
    (∃ (s : State) (hl : HostId) (f : FnId) (c : Nat), s.cmdReady (fidOf hl f)
      [field 25 0, field 25 0, field 31 0] ∧ c = (s.fn (fidOf hl f)).arg 0 ∧ s.ctxOwned
      (fidOf hl f) c = true ∧ (s.ctx c).st = .setup) ∧
    (∃ (s : State) (hl : HostId) (f : FnId) (c : Nat), s.cmdReady (fidOf hl f) [field 25 0] ∧
      c = (s.fn (fidOf hl f)).arg 0 ∧ s.ctxOwned (fidOf hl f) c = true) ∧
    (∃ (s : State) (hl : HostId) (f : FnId) (c : Nat), s.cmdReady (fidOf hl f)
      [field 25 0 + field 32 32] ∧ c = bits ((s.fn (fidOf hl f)).arg 0) 25 0 ∧ bit
      ((s.fn (fidOf hl f)).arg 0) 32 = false ∧ s.ctxOwned (fidOf hl f) c = true ∧
      ((s.ctx c).st = .error ∨ (s.ctx c).st = .aborted) ∧ s.ctxBusy c = false) :=
  ⟨⟨wCtxNew, 0, 0, 16, by decide +kernel⟩,
   ⟨wCtxJoin, 0, 0, 5, by decide +kernel⟩,
   ⟨wCtxAsk, 0, 0, 5, by decide +kernel⟩,
   ⟨wCtxAsk, 0, 0, 5, by decide +kernel⟩⟩

/-- What `Obligations.CommandsRegion` asks for is met. -/
theorem test_meets_CommandsRegion :
    (∃ (s : State) (hl : HostId) (f : FnId) (a : RegAsk) (i : Nat), s.cmdReady (fidOf hl f)
      [field 20 0 + field 29 24 + field 51 32, field 63 0, field 63 0, field 63 0] ∧ a = regAsk
      (s.fn (fidOf hl f)) ∧ a.pool = false ∧ 1 ≤ a.length ∧ a.length ≤ 2 ^ 40 ∧ s.pdOk
      (fidOf hl f) a.pd = true ∧ a.pasid = none ∧ s.within (fidOf hl f) 7 0x10 (Tbl.count
      (fun _ r => r.live && r.fid == fidOf hl f) s.regs) (Tbl.count
      (fun k r => k / 2 ^ 24 == hl.val && r.live) s.regs) 1 = true ∧ s.freeRegIndex hl = some i
      ∧ Tbl.count (fun _ r => r.cached) s.regs < s.regCacheSize) ∧
    (∃ (s : State) (hl : HostId) (f : FnId) (key k : Nat), s.cmdReady (fidOf hl f) [field 31 0]
      ∧ key = (s.fn (fidOf hl f)).arg 0 ∧ k = regKey hl (bits key 23 0) ∧ bits key 23
      0 < (s.link hl).regPantry.count ∧ bits key 31 24 ≠ 0 ∧ bits key 31 24 = (s.reg k).gen ∧
      (s.reg k).live = true ∧ (s.reg k).fid = fidOf hl f ∧ (s.reg k).pool = false ∧ s.keyInUse
      (fidOf hl f) key = false ∧ (∀ d ∈ s.dma, d.key ≠ some k) ∧ (∀ a ∈ s.fillStash ++
      s.delivery, a.passed ≠ some (k, (s.reg k).gen))) ∧
    (∃ (s : State) (hl : HostId) (f : FnId) (key k : Nat), s.live = true ∧ s.quiet ∧
      (s.fn (fidOf hl f)).wait = some (.regDeregister key) ∧ k = regKey hl (bits key 23 0) ∧
      (s.reg k).pool = false ∧ s.keyInUse (fidOf hl f) key = false ∧
      (∀ d ∈ s.dma, d.key ≠ some k) ∧ (∀ a ∈ s.fillStash ++ s.delivery, a.passed ≠ some
      (k, (s.reg k).gen))) ∧
    (∃ (s : State) (hl : HostId), s.cmdReady (fidOf hl 0) [field 0 0, field 63 0, field 24 0] ∧
      bit ((s.fn (fidOf hl 0)).arg 0) 0 = false ∧ (s.fn (fidOf hl 0)).arg 1 % 2 ^ 21 = 0 ∧
      (s.fn (fidOf hl 0)).arg 2 % 8192 = 0 ∧ 8192 ≤ (s.fn (fidOf hl 0)).arg 2 ∧
      (s.fn (fidOf hl 0)).arg 2 ≤ 2 ^ 24 ∧ s.pantryUsed hl false = false) ∧
    (∃ (s : State) (hl : HostId), s.cmdReady (fidOf hl 0) [field 0 0] ∧ bit
      ((s.fn (fidOf hl 0)).arg 0) 0 = true ∧ s.pantryUsed hl true = false ∧ s.pantryReading hl
      (fun r => r == true) = false) ∧
    (∃ (s : State) (hl : HostId) (f : FnId), f.val ≠ 0 ∧ s.live = true ∧ s.quiet ∧ s.fnUp
      (fidOf hl f) = true ∧ (s.fn (fidOf hl f)).wait = none) :=
  ⟨⟨wRegArgs, 0, 0, regAsk (wRegArgs.fn 0), 0, by decide +kernel⟩,
   ⟨wDereg, 0, 0, 0xFF000003, 3, by decide +kernel⟩,
   ⟨wDeregWait, 0, 0, 0x01000003, 3, by decide +kernel⟩,
   ⟨wPantryArgs, 0, by decide +kernel⟩,
   ⟨wPantryGone, 0, by decide +kernel⟩,
   ⟨wVfUp, 0, 1, by decide +kernel⟩⟩

/-- What `Obligations.CommandsMatching` asks for is met. -/
theorem test_meets_CommandsMatching :
    (∃ (s : State) (hl : HostId) (f : FnId) (k : Nat), s.cmdReady (fidOf hl f)
      [field 15 0, field 19 0] ∧ k = mctxKey hl ((s.fn (fidOf hl f)).arg 0) ∧
      (s.mctx k).live = false ∧ s.pdOk (fidOf hl f) ((s.fn (fidOf hl f)).arg 1) = true ∧
      s.within (fidOf hl f) 9 0x14 (Tbl.count (fun _ m => m.live && m.fid == fidOf hl f)
      s.mctxs) (Tbl.count (fun k m => k / 2 ^ 16 == hl.val && m.live) s.mctxs) 1 = true) ∧
    (∃ (s : State) (hl : HostId) (f : FnId) (k : Nat), s.cmdReady (fidOf hl f) [field 15 0] ∧
      k = mctxKey hl ((s.fn (fidOf hl f)).arg 0) ∧ (s.mctx k).live = true ∧
      (s.mctx k).fid = fidOf hl f ∧ (s.mctx k).posted = [] ∧ (s.mctx k).overflow = [] ∧
      (∀ e ∈ s.inflight, e.2.mctx ≠ k)) ∧
    (∃ (s : State) (hl : HostId) (f : FnId) (q k : Nat) (m : Mctx) (r : Posted), s.cmdReady
      (fidOf hl f) [field 14 0, field 15 0] ∧ q = (s.fn (fidOf hl f)).arg 0 ∧ r.q = q ∧
      r.idx = (s.fn (fidOf hl f)).arg 1 ∧ (s.queue q).ty = 1 ∧ (s.queue q).fid = fidOf hl f ∧
      r.idx < 2 ^ (s.queue q).log ∧ s.mctxs = [(k, m)] ∧ m.posted = [r] ∧ r.trace = none ∧
      s.plainQueue q) ∧
    (∃ (s : State) (hl : HostId) (f : FnId) (a : QAsk), s.cmdReady (fidOf hl f) [field 63 0,
      field 2 0 + field 11 4 + field 15 15 + field 55 16, field 19 0 + field 51 32, field 24 0]
      ∧ a = qAsk (s.fn (fidOf hl f)) ∧ a.ok (fidOf hl f) = true ∧ a.pasid = none ∧ s.pdOk
      (fidOf hl f) a.pd = true ∧ a.eqValid = false ∧ s.queues = [] ∧ s.within (fidOf hl f) 1
      0x00 0 0 1 = true) :=
  ⟨⟨wMctxArgs, 0, 0, 4, by decide +kernel⟩,
   ⟨wMctxGone, 0, 0, 4, by decide +kernel⟩,
   ⟨wCancelArgs, 0, 0, 2, 4, { live := true, posted := [wRecv] }, wRecv, by decide +kernel⟩,
   ⟨wQArgs, 0, 0, qAsk (wQArgs.fn 0), by decide +kernel⟩⟩

/-- What `Obligations.CommandsSampling` asks for is met. -/
theorem test_meets_CommandsSampling :
    (∃ (s : State) (hl : HostId) (f : FnId) (x : Fn), x = s.fn (fidOf hl f) ∧ s.cmdReady
      (fidOf hl f) [field 3 0 + field 24 16, field 63 0, field 4 0 + field 63 32] ∧ bits
      (x.arg 0) 3 0 = 1 ∧ x.arg 1 % 64 = 0 ∧ 2 ≤ bits (x.arg 2) 4 0 ∧ bits (x.arg 2) 4 0 ≤ 16 ∧
      10 ≤ bits (x.arg 2) 63 32 ∧ bits (x.arg 2) 63 32 ≤ 10000000 ∧ bits (x.arg 0) 23
      16 < vectorCount (fidOf hl f)) ∧
    (∃ (s : State) (hl : HostId) (f : FnId), s.cmdReady (fidOf hl f) [field 3 0] ∧ bits
      ((s.fn (fidOf hl f)).arg 0) 3 0 = 2) ∧
    (∃ (s : State) (hl : HostId) (c ev : Nat) (x : Fn), x = s.fn (fidOf hl 0) ∧ s.cmdReady
      (fidOf hl 0) [field 3 0, field 11 0 + field 25 16 + field 31 31, field 14 0] ∧ bits
      (x.arg 0) 3 0 = 3 ∧ c = bits (x.arg 1) 11 0 ∧ ev = bits (x.arg 1) 23 16 ∧ ev ≤ 18 ∧ bits
      (x.arg 1) 25 24 = 0 ∧ x.arg 2 = 0 ∧ (s.ctrRange hl).1 ≤ c ∧ c < (s.ctrRange hl).1 +
      (s.ctrRange hl).2) ∧
    (∃ (s : State) (hl : HostId) (f : FnId) (x : Fn) (q : Nat), x = s.fn (fidOf hl f) ∧
      s.cmdReady (fidOf hl f) [field 3 0, field 63 0, field 4 0, field 15 0 + field 47 32] ∧
      bits (x.arg 0) 3 0 = 1 ∧ 6 ≤ bits (x.arg 2) 4 0 ∧ bits (x.arg 2) 4 0 ≤ 16 ∧ x.arg 1 % max
      4096 (64 * 2 ^ bits (x.arg 2) 4 0) = 0 ∧ bits (x.arg 3) 47 32 ≠ 0 ∧ q = bits (x.arg 3) 14
      0 ∧ (s.queue q).live = true ∧ (s.queue q).fid = fidOf hl f ∧ (s.queue q).ty < 2) ∧
    (∃ (s : State) (hl : HostId) (f : FnId) (x : Fn), x = s.fn (fidOf hl f) ∧ s.cmdReady
      (fidOf hl f) [field 3 0, field 31 0, field 8 0] ∧ bits (x.arg 0) 3 0 = 3 ∧ x.arg 1 ≠ 0 ∧
      bits (x.arg 2) 7 0 < vectorCount (fidOf hl f)) ∧
    (∃ (s : State) (hl : HostId) (f : FnId), s.cmdReady (fidOf hl f) [field 3 0] ∧ bits
      ((s.fn (fidOf hl f)).arg 0) 3 0 = 4) :=
  ⟨⟨wDump, 0, 0, wDump.fn 0, by decide +kernel⟩,
   ⟨wStop, 0, 0, by decide +kernel⟩,
   ⟨wProgram, 0, 1700, 18, wProgram.fn 0, by decide +kernel⟩,
   ⟨wTrace, 0, 0, wTrace.fn 0, 2, by decide +kernel⟩,
   ⟨wSteps, 0, 0, wSteps.fn 0, by decide +kernel⟩,
   ⟨wStepsEnd, 0, 0, by decide +kernel⟩⟩

/-- What `Obligations.LockRequests` asks for is met. -/
theorem test_meets_LockRequests :
    (∃ (s : State) (hl : HostId) (f : FnId) (cell : Fin 256) (w : BitVec 64), s.lockReach
      (fidOf hl f) cell w.toNat 1 ∧ bit w.toNat 16 = false ∧ (s.lock cell).mode ≠ 1 ∧
      (s.lock cell).held = false ∧ (s.lock cell).waiters = []) ∧
    (∃ (s : State) (hl : HostId) (f : FnId) (cell : Fin 256) (w : BitVec 64), s.lockReach
      (fidOf hl f) cell w.toNat 1 ∧ bit w.toNat 16 = false ∧ (s.lock cell).mode ≠ 1 ∧
      (s.lock cell).held = true ∧ (s.lock cell).place (masterOf (fidOf hl f)) = 0 ∧
      (s.lock cell).waiters.length < 32) ∧
    (∃ (s : State) (hl : HostId) (f : FnId) (cell : Fin 256) (w : BitVec 64), s.lockReach
      (fidOf hl f) cell w.toNat 2 ∧ bit w.toNat 16 = false ∧ (s.lock cell).mode ≠ 1 ∧
      (s.lock cell).place (masterOf (fidOf hl f)) = 0) ∧
    (∃ (s : State) (hl : HostId) (f : FnId) (cell : Fin 256) (w : BitVec 64) (a : LockWait)
      (l : List LockWait), s.lockReach (fidOf hl f) cell w.toNat 3 ∧ (s.lock cell).held = true ∧
      (s.lock cell).owner = masterOf (fidOf hl f) ∧ (s.lock cell).waiters = a :: l ∧
      a.vector = none) ∧
    (∃ (s : State) (hl : HostId) (f : FnId) (cell : Fin 256) (w : BitVec 64), s.lockReach
      (fidOf hl f) cell w.toNat 3 ∧ (s.lock cell).held = true ∧ (s.lock cell).owner = masterOf
      (fidOf hl f) ∧ (s.lock cell).waiters = []) ∧
    (∃ (s : State) (hl : HostId) (f : FnId) (cell : Fin 256) (w : BitVec 64), s.lockReach
      (fidOf hl f) cell w.toNat 4 ∧ (s.lock cell).mode ≠ 1 ∧ 2 ≤ (s.lock cell).place
      (masterOf (fidOf hl f))) ∧
    (∃ (s : State) (hl : HostId) (f : FnId) (cell : Fin 256) (w : BitVec 64), s.lockReach
      (fidOf hl f) cell w.toNat 5 ∧ (s.lock cell).mode = 1 ∧ bits w.toNat 43 32 = masterOf
      (fidOf hl f) ∧ (s.lock cell).held = false) ∧
    (∃ (s : State) (hl : HostId) (cell : Fin 256) (w : BitVec 64) (a : LockWait)
      (l : List LockWait), s.lockReach (fidOf hl 0) cell w.toNat 6 ∧ (s.lock cell).mode = 2 ∧
      (s.lock cell).held = true ∧ (s.lock cell).waiters = a :: l ∧ a.vector = none) ∧
    (∃ (s : State) (hl : HostId) (f : FnId) (cell : Fin 256) (w : BitVec 64) (v : Nat),
      s.lockReach (fidOf hl f) cell w.toNat 1 ∧ bit w.toNat 16 = true ∧ v = bits w.toNat 15 8 ∧
      v < vectorCount (fidOf hl f) ∧ (s.lock cell).mode ≠ 1 ∧ (s.lock cell).held = false ∧
      (s.lock cell).place (masterOf (fidOf hl f)) = 0) ∧
    (∃ (s : State) (hl : HostId) (f : FnId) (cell : Fin 256) (w : BitVec 64) (v : Nat),
      s.lockReach (fidOf hl f) cell w.toNat 2 ∧ bit w.toNat 16 = true ∧ v = bits w.toNat 15 8 ∧
      v < vectorCount (fidOf hl f) ∧ (s.lock cell).mode ≠ 1 ∧ (s.lock cell).held = false ∧
      (s.lock cell).place (masterOf (fidOf hl f)) = 0) ∧
    (∃ (s : State) (hl : HostId) (f : FnId) (cell : Fin 256) (w : BitVec 64) (a : LockWait)
      (l : List LockWait) (v : Nat), s.lockReach (fidOf hl f) cell w.toNat 3 ∧
      (s.lock cell).held = true ∧ (s.lock cell).owner = masterOf (fidOf hl f) ∧
      (s.lock cell).waiters = a :: l ∧ a.vector = some v) ∧
    (∃ (s : State) (hl : HostId) (f : FnId) (cell : Fin 256) (w : BitVec 64), s.lockReach
      (fidOf hl f) cell w.toNat 1 ∧ bit w.toNat 16 = false ∧ (s.lock cell).mode ≠ 1 ∧
      (s.lock cell).held = true ∧ (s.lock cell).place (masterOf (fidOf hl f)) = 0 ∧
      32 ≤ (s.lock cell).waiters.length) ∧
    (∃ (s : State) (hl : HostId) (f : FnId) (cell : Fin 256) (w : BitVec 64), s.lockReach
      (fidOf hl f) cell w.toNat 5 ∧ (s.lock cell).mode = 1 ∧ bits w.toNat 43 32 = masterOf
      (fidOf hl f) ∧ (s.lock cell).held = true) ∧
    (∃ (s : State) (hl : HostId) (f : FnId) (cell : Fin 256) (w : BitVec 64), s.lockReach
      (fidOf hl f) cell w.toNat 4 ∧ (s.lock cell).mode ≠ 1 ∧ (s.lock cell).held = true ∧
      (s.lock cell).owner = masterOf (fidOf hl f) ∧ (s.lock cell).waiters = []) ∧
    (∃ (s : State) (hl : HostId) (cell : Fin 256) (w : BitVec 64), s.lockReach (fidOf hl 0) cell
      w.toNat 6 ∧ (s.lock cell).mode = 2 ∧ (s.lock cell).held = true ∧
      (s.lock cell).waiters = []) :=
  ⟨⟨wCellFree, 0, 0, 7, 1, by decide +kernel⟩,
   ⟨wCellHeld, 0, 0, 7, 1, by decide +kernel⟩,
   ⟨wCellFree, 0, 0, 7, 2, by decide +kernel⟩,
   ⟨wCellMine, 0, 0, 7, 3, ⟨8, none⟩, [⟨16, none⟩], by decide +kernel⟩,
   ⟨wCellAlone, 0, 0, 7, 3, by decide +kernel⟩,
   ⟨wCellWaits, 0, 0, 7, 4, by decide +kernel⟩,
   ⟨wCellClaim, 0, 0, 7, 5, by decide +kernel⟩,
   ⟨wCellForce, 0, 7, 6, ⟨16, none⟩, [], by decide +kernel⟩,
   ⟨wCellFree, 0, 0, 7, 0x10501, 5, by decide +kernel⟩,
   ⟨wCellOpen, 0, 0, 7, 0x1FF02, 255, by decide +kernel⟩,
   ⟨wCellNext, 0, 0, 7, 3, ⟨8, some 3⟩, [⟨16, none⟩], 3, by decide +kernel⟩,
   ⟨wCellFull, 0, 0, 7, 1, by decide +kernel⟩,
   ⟨wCellTaken, 0, 0, 7, 5, by decide +kernel⟩,
   ⟨wCellAlone, 0, 0, 7, 4, by decide +kernel⟩,
   ⟨wCellLone, 0, 7, 6, by decide +kernel⟩⟩

/-- What `Obligations.GatherAndMouldChecks` asks for is met. -/
theorem test_meets_GatherAndMouldChecks :
    (∃ (s : State) (row : Fin 17) (vc : Fin 16) (p : Pkt), s.live = true ∧ s.quiet ∧ pv row vc ∈
      s.gatherHeld ∧ s.copyHead row vc = none ∧ (row.val = 16 → queueOf s.madeQ vc = []) ∧
      s.headOf row vc = some p ∧ s.gatherStale p = false ∧ p.malformed (s.pvcLimit row) = false
      ∧ p.isMould = true ∧ p.mode = 2 ∧ sprueValid (Tbl.get 0 s.sprue p.tree) = true ∧
      s.gatherRoom p = true) ∧
    (∃ (s : State) (m : Fin 1024), s.serves = true ∧ s.quiet ∧ (s.mould m).st = .checking ∧
      s.xferOn (0x6000 + m.val) 0 = none ∧ (∀ w ∈ s.loadWait, w.1 ≠ m.val) ∧ s.mouldFails
      (s.mould m) = none ∧ s.mouldFits m (s.mould m) = true) ∧
    (∃ (s : State) (m : Fin 1024) (code k : Nat), s.serves = true ∧ s.quiet ∧
      (s.mould m).st = .checking ∧ s.xferOn (0x6000 + m.val) 0 = none ∧
      (∀ w ∈ s.loadWait, w.1 ≠ m.val) ∧ s.mouldFails (s.mould m) = some (code, some k)) ∧
    (∃ (s : State) (m : Fin 1024) (r : IdpReq), s.serves = true ∧ s.quiet ∧
      (s.mould m).st = .checking ∧ s.xferOn (0x6000 + m.val) 0 = none ∧
      s.loadWait = [(m.val, r)] ∧ r.mtype = mtSegCommit ∧ s.mouldFails (s.mould m) = none ∧
      s.mouldFits m (s.mould m) = true) :=
  ⟨⟨wHeldBack, 16, 8, wGatherPkt, by decide +kernel⟩,
   ⟨wGoodLoad, 9, by decide +kernel⟩,
   ⟨wBadLoad, 9, 3, 1, by decide +kernel⟩,
   ⟨wLoadEnds, 9, wCommit, by decide +kernel⟩⟩

/-- What `Obligations.RegisterUpdate` asks for is met. -/
theorem test_meets_RegisterUpdate :
    (∃ (s : State) (hl : HostId) (f : FnId), s.live = true ∧ s.quiet ∧ s.fnUp
      (fidOf hl f) = true ∧ (s.fn (fidOf hl f)).skip = [] ∧ (s.fn (fidOf hl f)).spoilt = [] ∧
      (s.fn (fidOf hl f)).lost = 0) ∧
    (∃ s : State, s.phase = .running ∧ s.quench = false ∧ s.clockOn clkSvc = true ∧ s.quiet) ∧
    (∃ (s : State) (hl : HostId) (f : FnId), f.val ≠ 0 ∧ s.live = true ∧ s.quiet ∧ s.fnUp
      (fidOf hl f) = true ∧ s.muted (blkHl hl) 1 ∧ (s.fn (fidOf hl f)).badAccess.getLsbD
      31 = false) :=
  ⟨⟨wStrobe, 0, 0, by decide +kernel⟩,
   ⟨wStrobeSp, by decide +kernel⟩,
   ⟨wVfStrobe, 0, 1, by decide +kernel⟩⟩

/-- What `Obligations.RegisterActions` asks for is met. -/
theorem test_meets_RegisterActions :
    (∃ (s : State) (hl : HostId) (f : FnId) (v : BitVec 32), s.live = true ∧ s.quiet ∧ s.fnUp
      (fidOf hl f) = true ∧ v.toNat < 2 ^ 15 ∧ (s.queue v.toNat).live = true ∧
      (s.queue v.toNat).fid = fidOf hl f ∧ (s.queue v.toNat).ty < 2) ∧
    (∃ (s : State) (hl : HostId) (v : BitVec 32) (e part : Nat), s.live = true ∧ s.quiet ∧
      s.fnUp (fidOf hl 0) = true ∧ bit v.toNat 31 = true ∧ bits v.toNat 15 14 = 0 ∧ bits v.toNat
      30 20 = 0 ∧ e = bits v.toNat 13 0 ∧ part = bits v.toNat 19 16 ∧ s.epInRange hl e = true ∧
      (s.ep e).live = true ∧ bit (s.quota hl 16) part = true) ∧
    (∃ (s : State) (hl : HostId) (v : BitVec 32) (e part : Nat), s.live = true ∧ s.quiet ∧
      s.fnUp (fidOf hl 0) = true ∧ bit v.toNat 31 = true ∧ bits v.toNat 15 14 = 0 ∧ bits v.toNat
      30 20 = 0 ∧ e = bits v.toNat 13 0 ∧ part = bits v.toNat 19 16 ∧ s.epInRange hl e = true ∧
      (s.ep e).live = true ∧ bit (s.quota hl 16) part = false) ∧
    (∃ (s : State) (hl : HostId) (v : BitVec 32), s.live = true ∧ s.quiet ∧ s.fnUp
      (fidOf hl 0) = true ∧ bit v.toNat 0 = true ∧ (s.link hl).mbxBusy = false ∧ bits v.toNat 7
      2 = 0 ∧ bits v.toNat 31 29 = 0 ∧ 32 ≤ bits v.toNat 28 16 ∧ bits v.toNat 28 16 ≤ 4096) ∧
    (∃ (s : State) (hl : HostId) (v : BitVec 32), s.live = true ∧ s.quiet ∧ s.fnUp
      (fidOf hl 0) = true ∧ bit v.toNat 0 = true ∧ (s.link hl).mbxBusy = true ∧ bits v.toNat 7
      2 = 0 ∧ bits v.toNat 31 29 = 0) ∧
    (∃ (s : State) (hl : HostId) (v : BitVec 32), s.live = true ∧ s.quiet ∧ s.fnUp
      (fidOf hl 0) = true ∧ bit v.toNat 0 = true ∧ (s.link hl).mbxBusy = false ∧ bits v.toNat 7
      1 = 0 ∧ bits v.toNat 31 29 = 0 ∧ (bits v.toNat 28 16 < 32 ∨ 4096 < bits v.toNat 28 16)) :=
  ⟨⟨wWake, 0, 0, 2, by decide +kernel⟩,
   ⟨wRebind, 0, 0x80020001, 1, 2, by decide +kernel⟩,
   ⟨wRebind, 0, 0x80010001, 1, 1, by decide +kernel⟩,
   ⟨wMbx, 0, 0x00200001, by decide +kernel⟩,
   ⟨wMbxBusy, 0, 1, by decide +kernel⟩,
   ⟨wMbx, 0, 0x001F0001, by decide +kernel⟩⟩

/-- What `Obligations.RegisterAccess` asks for is met. -/
theorem test_meets_RegisterAccess :
    (∃ (s : State) (hl : HostId) (f : FnId) (k : Fin 4) (v : BitVec 64), s.live = true ∧ s.quiet
      ∧ s.fnUp (fidOf hl f) = true) ∧
    (∃ (s : State) (hl : HostId) (f : FnId) (v : BitVec 64), s.live = true ∧ s.quiet ∧ s.fnUp
      (fidOf hl f) = true ∧ v.toNat < 2 ^ 16) ∧
    (∃ (s : State) (hl : HostId) (f : FnId) (v : BitVec 64), s.live = true ∧ s.quiet ∧ s.fnUp
      (fidOf hl f) = true ∧ s.muted (blkHl hl) 1) ∧
    (∃ (s : State) (hl : HostId) (f : FnId), s.phase = .running ∧ s.quiet ∧ s.fnUp
      (fidOf hl f) = true) ∧
    (∃ (s : State) (hl : HostId) (f : FnId), s.phase = .running ∧ s.quiet ∧ s.fnUp
      (fidOf hl f) = true) ∧
    (∃ (s : State) (hl : HostId) (f : FnId) (h : BitVec 32), s.phase = .running ∧ s.quiet ∧
      s.fnUp (fidOf hl f) = true ∧ Tbl.get none (s.fn (fidOf hl f)).latch 0x28 = some h) ∧
    (∃ (s : State) (hl : HostId) (f : FnId), s.live = true ∧ s.quiet ∧ s.fnUp
      (fidOf hl f) = true ∧ s.muted (blkHl hl) 1) ∧
    (∃ (s : State) (hl : HostId) (f : FnId) (size : Nat), s.phase = .running ∧ s.quiet ∧
      s.fnThere (fidOf hl f) = true) ∧
    (∃ (s : State) (hl : HostId) (f : FnId) (size : Nat), s.phase = .running ∧ s.quiet ∧
      s.fnThere (fidOf hl f) = true) :=
  ⟨⟨wRun, 0, 0, 0, 2 ^ 63, by decide +kernel⟩,
   ⟨wRun, 0, 0, 0xFFFF, by decide +kernel⟩,
   ⟨wDeafHl, 0, 0, 0xFFFF, by decide +kernel⟩,
   ⟨wClock, 0, 0, by decide +kernel⟩,
   ⟨wClock, 0, 0, by decide +kernel⟩,
   ⟨wLatched, 0, 0, 77, by decide +kernel⟩,
   ⟨wDeafHl, 0, 0, by decide +kernel⟩,
   ⟨wRun, 0, 0, 4, by decide +kernel⟩,
   ⟨wRun, 0, 0, 4, by decide +kernel⟩⟩

/-- What `Obligations.ClockForce` asks for is met. -/
theorem test_meets_ClockForce :
    (∃ (s : State) (d : DomainId) (src : Fin 4), s.phase = .running ∧ s.quench = false ∧
      s.clockOn clkSvc = true ∧ s.quiet ∧ (s.clk d).held = true ∧ src.val < 2) ∧
    (∃ (s : State) (d : DomainId) (src : Fin 4), s.phase = .running ∧ s.quench = false ∧
      s.clockOn clkSvc = true ∧ s.quiet ∧ (s.clk d).held = false ∧ s.muted blkClkgen 1) ∧
    (∃ (s : State) (d : DomainId), s.phase = .running ∧ s.quench = false ∧ s.clockOn
      clkSvc = true ∧ s.quiet ∧ 20 < d.val ∧ d.val ≠ 24) ∧
    (∃ (s : State) (p : PortId) (d : DomainId), d.val = p.val ∧ s.phase = .running ∧
      s.quench = false ∧ s.clockOn clkSvc = true ∧ s.quiet ∧ (s.clk d).held = false ∧
      (s.port p).st = .exchange) ∧
    (∃ (s : State) (d : DomainId), s.phase = .running ∧ s.quench = false ∧ s.clockOn
      clkSvc = true ∧ s.quiet ∧ (s.clk d).held = true) :=
  ⟨⟨wHeldClk, 22, 1, by decide +kernel⟩,
   ⟨wClkMute, 3, 1, by decide +kernel⟩,
   ⟨wRun, 21, by decide +kernel⟩,
   ⟨wExchange, 3, 3, by decide +kernel⟩,
   ⟨wHeldClk, 22, by decide +kernel⟩⟩

/-- What `Obligations.ClockSources` asks for is met. -/
theorem test_meets_ClockSources :
    (∃ (s : State) (k : Fin 14) (blk : Nat), s.phase = .running ∧ s.quench = false ∧ s.quiet ∧
      s.locked k = true ∧ k.val < 8 ∧ blk = 56 + k.val / 2 ∧ s.reactOf blk 8 = 17) ∧
    (∃ (s : State) (k : Fin 14), s.phase = .running ∧ s.quiet ∧ s.pllPowered k = true ∧ s.locked
      k = false) ∧
    (∃ (s : State) (d : DomainId), s.phase = .running ∧ s.quiet ∧ (s.clk d).switching = true ∧
      (s.clk d).hung = false ∧ (s.clk d).gated = false ∧ (s.clk d).queued = none ∧ s.sourceRuns
      d (s.clk d).cur = true ∧ s.sourceRuns d (s.clk d).src = true) :=
  ⟨⟨wPll, 7, 59, by decide +kernel⟩,
   ⟨wPllOff, 0, by decide +kernel⟩,
   ⟨wSwitch, 22, by decide +kernel⟩⟩

/-- What `Obligations.ClockMonitors` asks for is met. -/
theorem test_meets_ClockMonitors :
    (∃ (s : State) (d : Fin 26) (n : Nat), s.phase = .running ∧ s.quiet ∧ d.val < 25 ∧
      s.monitored d = true ∧ 16 ≤ n) ∧
    (∃ (s : State) (d : Fin 26) (n : Nat), s.phase = .running ∧ s.quiet ∧ s.quench = false ∧
      d.val < 25 ∧ d.val ≠ 20 ∧ d.val ≠ 24 ∧ s.monitored d = true ∧ n < 16 ∧ s.muted blkClkgen
      9) ∧
    (∃ (s : State) (d : Fin 26) (n : Nat), s.phase = .running ∧ s.quiet ∧
      (d.val = 20 ∨ d.val = 24) ∧ s.monitored d = true ∧ n < 16 ∧ (s.clk d).cur = 0 ∧
      ((s.clk d).switching = false ∨ s.sourceRuns d (s.clk d).src = true)) ∧
    (∃ (s : State) (d : Fin 26) (n : Nat), s.phase = .running ∧ s.quiet ∧ s.muted blkClkgen 9 ∧
      (d.val = 20 ∨ d.val = 24) ∧ s.monitored d = true ∧ n < 16 ∧ ((s.clk d).cur ≠ 0 ∨
      ((s.clk d).switching = true ∧ s.sourceRuns d (s.clk d).src = false))) :=
  ⟨⟨wRun, 24, 16, by decide +kernel⟩,
   ⟨wSlow, 3, 15, by decide +kernel⟩,
   ⟨wSvc, 20, 15, by decide +kernel⟩,
   ⟨wSvcPll, 24, 15, by decide +kernel⟩⟩

/-- What `Obligations.GatesAndDomains` asks for is met. -/
theorem test_meets_GatesAndDomains :
    (∃ (s : State) (d : DomainId), s.phase = .running ∧ s.quiet ∧
      (s.clk d).gateAsked.isSome = true ∧ s.mayQuiet d = true) ∧
    (∃ (s : State) (e : Fin 149), s.phase = .running ∧ s.quiet ∧ (s.dom e).st = .on ∧
      (s.dom e).quietAsked.isSome = true ∧ (s.dom e).busy = false) ∧
    (∃ (s : State) (d : DomainId) (at_ : Nat), s.phase = .running ∧ s.quiet ∧
      (s.clk d).gateAsked = some at_ ∧ at_ + s.gateTimeout * 1000 ≤ s.now) ∧
    (∃ (s : State) (e : Fin 149) (at_ : Nat), s.phase = .running ∧ s.quiet ∧
      (s.dom e).quietAsked = some at_ ∧ at_ + s.gateTimeout * 1000 ≤ s.now ∧
      (s.dom e).busy = false) ∧
    (∃ (s : State) (e : Fin 149), s.phase = .running ∧ s.quiet ∧ (s.dom e).st = .ramping ∧
      s.luck.rext = 0) ∧
    (∃ (s : State) (p : PortId), s.phase = .running ∧ (s.port p).st = .disabled ∧ s.portEnabled
      p = false ∧ (s.port p).since + 10 ^ 6 ≤ s.now ∧ (s.dom (elSerdes p)).st = .on ∧
      (s.dom (elLinkEngine p)).st = .on) ∧
    (∃ (s : State) (n : Fin 4), s.phase = .running ∧ (dieDomains n).all s.longOff = true ∧
      s.dieEnabled n = [] ∧ (s.dom (elBridge n)).st = .on) :=
  ⟨⟨wGateAsk, 3, by decide +kernel⟩,
   ⟨wQuiet, 34, by decide +kernel⟩,
   ⟨wGateAsk, 3, 4900000, by decide +kernel⟩,
   ⟨wQuiet, 34, 4900000, by decide +kernel⟩,
   ⟨{ wRun with pwr := [(36, { st := .ramping })], flt := [(58, { status := 5 })] }, 36,
     by decide +kernel⟩,
   ⟨wPortOff, 3, by decide +kernel⟩,
   ⟨wDieOff, 1, by decide +kernel⟩⟩

/-- What `Obligations.Governor` asks for is met. -/
theorem test_meets_Governor :
    (∃ (s : State) (r : Fin 4) (n : Nat) (l : List Nat), s.phase = .running ∧ s.domainRuns
      clkTime = true ∧ bit s.regions r = true ∧ s.gov.tempo.length = 4 ∧ s.gov.counts.length = 4
      ∧ l = (n :: nth [] s.gov.counts r).take 16) ∧
    (∃ (s : State) (k : Fin 3) (mv ma : Nat), s.govRuns = true ∧ s.quiet ∧
      s.govPlan.1 ≠ s.vddNow) ∧
    (∃ (s : State) (k : Fin 3) (mv ma : Nat), s.govRuns = true ∧ s.quiet ∧
      s.govPlan.1 = s.vddNow ∧ s.gov.vdd ≠ 0) ∧
    (∃ s : State, s.govRuns = true ∧ s.quiet ∧ s.muted blkClkgen 4) :=
  ⟨⟨wMeter, 1, 2500, 2500 :: List.replicate 15 2300, by decide +kernel⟩,
   ⟨{ wMeter with dict := [(0x7000 * 256, 2600)] }, 2, 725, 90, by decide +kernel⟩,
   ⟨wSteady, 0, 720, 90, by decide +kernel⟩,
   ⟨wAvs, by decide +kernel⟩⟩

/-- What `Obligations.FaultSources` asks for is met. -/
theorem test_meets_FaultSources :
    (∃ (s : State) (blk : Fin 240) (unit : Nat) (detail : BitVec 64) (m : Nat),
      s.phase = .running ∧ s.quench = false ∧ s.quiet ∧ 40 ≤ blk.val ∧ blk.val < 56 ∧
      m = s.reactOf blk 8 ∧ bit m 2 = false ∧ bit m 3 = false) ∧
    (∃ (s : State) (blk : Fin 240) (src : Fin 64), s.live = true ∧ s.quiet ∧ s.muted blk src ∧
      ¬(122 ≤ blk.val ∧ blk.val < 129 ∧ src.val = 9)) ∧
    (∃ (s : State) (blk : Fin 240) (unit : Nat) (stage : BitVec 64), s.phase = .running ∧
      s.quiet ∧ s.muted blk 4) :=
  ⟨⟨wRun, 40, 7, 5, 17, by decide +kernel⟩,
   ⟨wCryptoMute, 130, 8, by decide +kernel⟩,
   ⟨wPortMute, 43, 256, 3, by decide +kernel⟩⟩

/-- What `Obligations.FaultReactions` asks for is met. -/
theorem test_meets_FaultReactions :
    (∃ (s : State) (blk : Fin 240) (unit : Nat) (detail : BitVec 64), s.phase = .running ∧
      s.quench = false ∧ s.quiet ∧ blk.val = blkCrypto ∧ bit (s.reactOf blk 8) 1 = true ∧ bit
      (s.reactOf blk 8) 3 = true ∧ (∀ hl : HostId, s.evtQueueOf (fidOf hl 0) = none)) ∧
    (∃ (s : State) (p : PortId) (blk : Fin 240) (unit : Nat) (stage : BitVec 64),
      s.phase = .running ∧ s.quench = false ∧ s.quiet ∧ blk.val = blkPort p ∧ s.reactOf blk
      4 = 4 ∧ (s.fltOf blk).resets.head? ≠ some s.now ∧ (s.port p).st = .exchange) :=
  ⟨⟨wCrypto, 130, 1, 9, by decide +kernel⟩,
   ⟨{ wPortReset with dict := [(0x3103 * 256 + 6, 77), (0x3103 * 256 + 8, 77),
     (0x3103 * 256 + 1, 0), (0x3104 * 256 + 6, 9)] }, 3, 43, 0, 2, by decide +kernel⟩⟩

/-- What `Obligations.SramAndRegions` asks for is met. -/
theorem test_meets_SramAndRegions :
    (∃ (s : State) (g : Fin 48) (k : Fin 33) (row word : Nat), s.live = true ∧ s.quiet ∧ s.domOn
      (elSram g) = true ∧ (s.bank (bankKey g k)).retired = false ∧
      ¬(k.val = 32 ∧ row = 2047 ∧ word = 7)) ∧
    (∃ (s : State) (g : Fin 48) (k : Fin 33) (row word : Nat), s.live = true ∧ s.quiet ∧ s.domOn
      (elSram g) = true ∧ (s.bank (bankKey g k)).retired = false ∧ s.muted (blkSram g) 2 ∧
      ¬(k.val = 32 ∧ row = 2047 ∧ word = 7) ∧ Tbl.get 0 (s.bank (bankKey g k)).rowErrors
      row = 0) ∧
    (∃ (s : State) (g : Fin 48) (k : Fin 33) (row word : Nat), s.live = true ∧ s.quiet ∧ s.domOn
      (elSram g) = true ∧ (s.bank (bankKey g k)).retired = false ∧ s.muted (blkSram g) 2 ∧
      s.muted (blkSram g) 8 ∧ ¬(k.val = 32 ∧ row = 2047 ∧ word = 7) ∧ Tbl.get 0
      (s.bank (bankKey g k)).rowErrors row ≠ 0 ∧ Tbl.get 0 (s.bank (bankKey g k)).rowErrors
      row ≠ Tbl.get 0 s.scrubPasses g + 1 ∧ 0 < (s.bank (bankKey g k)).spareRows) ∧
    (∃ (s : State) (r : Fin 4), s.live = true ∧ s.quiet ∧ bit s.regions r = true ∧
      2 ≤ s.liveRegions.length ∧ s.moulds = [] ∧ s.unheard 8) ∧
    (∃ (s : State) (r : Fin 4), s.live = true ∧ s.quiet ∧ s.liveRegions.length ≤ 1) :=
  ⟨⟨wRun, 0, 32, 2047, 6, by decide +kernel⟩,
   ⟨wRow, 47, 32, 2047, 6, by decide +kernel⟩,
   ⟨wRowAgain, 0, 31, 2047, 7, by decide +kernel⟩,
   ⟨wTwoRegions, 3, by decide +kernel⟩,
   ⟨wLastRegion, 2, by decide +kernel⟩⟩

/-- What `Obligations.CounterRecords` asks for is met. -/
theorem test_meets_CounterRecords :
    (∃ s : State, s.live = true ∧ s.windowOver = true) ∧
    (∃ (s : State) (hl : HostId) (f : FnId) (time first n : Nat) (body : Bytes), s.quiet ∧
      s.hostReady (fidOf hl f) ∧ s.asleep (fidOf hl f) = false ∧ s.dumpDue (fidOf hl f) = some
      time ∧ s.stagingBad = 0 ∧ n = (s.fn (fidOf hl f)).dump.missed time ∧ s.runsOf
      (fidOf hl f) = [first] ∧ (s.fn (fidOf hl f)).dump.vectorEn = false ∧ body = toLe 4
      (s.fn (fidOf hl f)).dump.rseq ++ s.dumpBody (fidOf hl f)
      (((s.fn (fidOf hl f)).dump.pass + n) % 2 ^ 32) time first) ∧
    (∃ (s : State) (hl : HostId) (f : FnId), s.quiet ∧ s.dumpDue (fidOf hl f) = none) :=
  ⟨⟨wBytes, by decide +kernel⟩,
   ⟨wDumpVf, 0, 1, 1000, 2048, 0, toLe 4 (wDumpVf.fn (fidOf 0 1)).dump.rseq ++ wDumpVf.dumpBody
     (fidOf 0 1) (wDumpVf.fn (fidOf 0 1)).dump.pass 1000 2048, by decide +kernel⟩,
   ⟨wRun, 0, 0, by decide +kernel⟩⟩

/-- What `Obligations.DictionaryAccess` asks for is met. -/
theorem test_meets_DictionaryAccess :
    (∃ (s : State) (r : IdpReq) (rest : List IdpReq) (row : ObjRow), s.idpHead r rest mtRead ∧
      s.idpObj r row ∧ row.ty.scalar = true ∧ r.index ≠ 0xA011 ∧ r.index ≠ 0x7030 ∧
      r.index ≠ 0x7040 ∧ r.sub ≠ 0 ∧ r.offset = 0 ∧ r.count = 0 ∧ s.report r.index r.sub = none)
      ∧
    (∃ (s : State) (r : IdpReq) (rest : List IdpReq) (row : ObjRow), s.idpHead r rest mtWrite ∧
      s.idpObj r row ∧ row.ty.scalar = true ∧ row.ty ≠ .bool ∧ 0x2020 ≤ r.index ∧
      r.index < 0x2034 ∧ transportRange r.index r.sub (leNat r.data) = stOk ∧
      s.flash.failNext = false) ∧
    (∃ (s : State) (r : IdpReq) (rest : List IdpReq), s.idpHead r rest mtInfo ∧ r.auth = false ∧
      r.length = 0 ∧ r.count = 0) ∧
    (∃ (s : State) (r : IdpReq) (rest : List IdpReq), s.idpHead r rest mtInfo ∧ r.auth = false ∧
      (r.length ≠ 0 ∨ r.count ≠ 0)) ∧
    (∃ (s : State) (r : IdpReq) (rest : List IdpReq) (mac : Nat), s.serves = true ∧ s.quiet ∧
      s.loadWait = [] ∧ s.idpQ = r :: rest ∧ r.mtype = mtWrite ∧ r.src = .t1s mac ∧
      s.mnetUp = true ∧ s.admission r ≠ stOk) ∧
    (∃ (s : State) (r : IdpReq) (rest : List IdpReq) (row : ObjRow), s.idpHead r rest mtWrite ∧
      s.idpObj r row ∧ row.ty.scalar = true ∧ row.ty ≠ .bool ∧ 0x2020 ≤ r.index ∧
      r.index < 0x2034 ∧ transportRange r.index r.sub (leNat r.data) = stOk ∧ row.pers = true ∧
      s.flash.failNext = true) :=
  ⟨⟨wIdp wReadReq, wReadReq, [], ⟨0x2030, 4, 8, .u32, .rw, 2122, 65536, true, true⟩,
    by decide +kernel⟩,
   ⟨wIdp wWriteReq, wWriteReq, [], ⟨0x2030, 4, 8, .u32, .rw, 2122, 65536, true, true⟩,
     by decide +kernel⟩,
   ⟨wIdp wInfoReq, wInfoReq, [], by decide +kernel⟩,
   ⟨wIdp wInfoLong, wInfoLong, [], by decide +kernel⟩,
   ⟨wIdp wBadReq, wBadReq, [], 5, by decide +kernel⟩,
   ⟨{ wIdp wWriteReq with flash := { failNext := true } }, wWriteReq, [], ⟨0x2030, 4, 8, .u32,
     .rw, 2122, 65536, true, true⟩, by decide +kernel⟩⟩

/-- What `Obligations.Transfers` asks for is met. -/
theorem test_meets_Transfers :
    (∃ (s : State) (r : IdpReq) (rest : List IdpReq) (row : ObjRow) (n : Nat), s.idpHead r rest
      mtSegOpen ∧ s.idpObj r row ∧ row.ty = .staged n ∧ s.xferOn r.index r.sub = none ∧
      s.xfers.length < 4 ∧ (r.index < 0x6000 ∨ 0x6400 ≤ r.index)) ∧
    (∃ (s : State) (r : IdpReq) (rest : List IdpReq) (row : ObjRow) (x : Xfer), s.idpHead r rest
      mtSegData ∧ s.idpObj r row ∧ s.xferOf r = some x ∧ (x.index < 0x6000 ∨ 0x6400 ≤ x.index) ∧
      r.offset = x.bytes.length ∧ x.bytes.length + r.length ≤ x.length) ∧
    (∃ (s : State) (r : IdpReq) (rest : List IdpReq) (row : ObjRow) (x : Xfer), s.idpHead r rest
      mtSegCommit ∧ s.idpObj r row ∧ s.xferOf r = some x ∧ r.index = 0xA010 ∧
      x.bytes.length = x.length) ∧
    (∃ (s : State) (r : IdpReq) (rest : List IdpReq) (row : ObjRow) (x : Xfer), s.idpHead r rest
      mtSegAbort ∧ s.idpObj r row ∧ s.xferOf r = some x ∧ (∀ z ∈ s.xfers, z.handle = x.handle →
      0x6400 ≤ z.index)) ∧
    (∃ (s : State) (h : Nat), s.serves = true ∧ s.quiet ∧ (∀ z ∈ s.xfers, z.handle = h →
      0x6400 ≤ z.index)) :=
  ⟨⟨wIdp wOpenReq, wOpenReq, [], wNonceRow, 32, by decide +kernel⟩,
   ⟨wXfer wDataReq (zeros 28), wDataReq, [], wNonceRow,
     ⟨77, 0xA010, 0, 4, 32, zeros 28, 4000000⟩, by decide +kernel⟩,
   ⟨wXfer wCommitReq (zeros 32), wCommitReq, [], wNonceRow,
     ⟨77, 0xA010, 0, 4, 32, zeros 32, 4000000⟩, by decide +kernel⟩,
   ⟨wXfer wAbortReq (zeros 8), wAbortReq, [], wNonceRow,
     ⟨77, 0xA010, 0, 4, 32, zeros 8, 4000000⟩, by decide +kernel⟩,
   ⟨wIdle, 77, by decide +kernel⟩⟩

/-- What `Obligations.ManagementNetwork` asks for is met. -/
theorem test_meets_ManagementNetwork :
    (∃ (s : State) (fr : T1sFrame), s.serves = true ∧ s.mnetUp = true ∧ s.acceptsFrame fr = true
      ∧ s.waitingOn IdpSource.isT1s < 8) ∧
    (∃ (s : State) (fr : T1sFrame), s.serves = true ∧ s.mnetUp = true ∧ s.acceptsFrame fr = true
      ∧ 8 ≤ s.waitingOn IdpSource.isT1s ∧ s.quench = false) ∧
    (∃ (s : State) (e : Nat), s.serves = true ∧ s.mnetUp = true ∧ s.i3cAddr.isSome = true ∧
      s.mnetWait = []) ∧
    (∃ (s : State) (a : Fin 128), s.serves = true ∧ s.mnetUp = true ∧ s.i3cAddr = none) ∧
    (∃ (s : State) (hl : HostId) (req : Bytes), s.serves = true ∧ s.quiet ∧ s.quench = false ∧
      s.fnUp (fidOf hl 0) = true ∧ req.length = 36 ∧ fld req 0 4 = 1 ∧ s.lcReset = none ∧
      s.lower.made = true ∧ s.lower.used < 1024) ∧
    (∃ (s : State) (hl : HostId) (req : Bytes), s.serves = true ∧ s.quiet ∧ s.fnUp
      (fidOf hl 0) = true ∧ req.length ≠ 36) :=
  ⟨⟨wRun, wFrame, by decide +kernel⟩,
   ⟨wEight, wFrame, by decide +kernel⟩,
   ⟨wI3c, 511, by decide +kernel⟩,
   ⟨wRun, 127, by decide +kernel⟩,
   ⟨wLms, 0, toLe 4 1 ++ zeros 32, by decide +kernel⟩,
   ⟨wRun, 0, zeros 35, by decide +kernel⟩⟩

/-- What `Obligations.PackageResets` asks for is met. -/
theorem test_meets_PackageResets :
    (∃ (s : State) (n : Nat), s.porstLow = false ∧ 10000 ≤ n) ∧
    (∃ (s : State) (n : Nat), n < 1000) ∧
    (∃ (s : State) (n : Nat), s.porstLow = false ∧ 1000 ≤ n ∧ n < 10000) ∧
    (∃ (s : State) (st : Straps), s.porstLow = true ∧ s.railHold = false ∧ st.bootMode ≠ 3 ∧
      s.flash.bad = [] ∧ s.weakRows = [] ∧ s.luck.good) ∧
    (∃ (s : State) (st : Straps), s.railHold = true ∧ s.porstLow = false ∧ st.bootMode ≠ 3 ∧
      s.flash.bad = [] ∧ s.weakRows = [] ∧ s.luck.good) ∧
    (∃ (s : State) (st : Straps), s.quiet ∧ s.railHold = true ∧ s.porstLow = true) ∧
    (∃ s : State, s.rstAsked = true ∧ s.mnetWait = [] ∧ s.phase ≠ .held ∧ s.phase ≠ .dead ∧
      s.bootMode ≠ 3 ∧ s.flash.bad = [] ∧ s.weakRows = [] ∧ s.luck.good) ∧
    (∃ (s : State) (due : Nat), s.lcReset = some due ∧ due ≤ s.now ∧ s.quench = false ∧
      s.phase ≠ .held ∧ s.phase ≠ .dead ∧ s.bootMode ≠ 3 ∧ s.flash.bad = [] ∧ s.weakRows = [] ∧
      s.luck.good) ∧
    (∃ s : State, s.quench = true ∧ s.quiet) :=
  ⟨⟨wRun, 10000, by decide +kernel⟩,
   ⟨wRun, 999, by decide +kernel⟩,
   ⟨wRun, 9999, by decide +kernel⟩,
   ⟨{ State.reset with railHold := false, porstLow := true, fuses := { identityWritten := true }
     }, ⟨1, 2, false⟩, by decide +kernel⟩,
   ⟨{ State.reset with railHold := true, porstLow := false, fuses := { identityWritten := true }
     }, ⟨0, 0, true⟩, by decide +kernel⟩,
   ⟨{ State.reset with railHold := true }, ⟨0, 0, true⟩, by decide +kernel⟩,
   ⟨wAsked, by decide +kernel⟩,
   ⟨wLcDue, 5000000, by decide +kernel⟩,
   ⟨wStopped, by decide +kernel⟩⟩

/-- What `Obligations.HostLinkStates` asks for is met. -/
theorem test_meets_HostLinkStates :
    (∃ (s : State) (hl : HostId), s.phase = .running ∧ s.present hl = true ∧
      (s.link hl).st = .inReset) ∧
    (∃ (s : State) (hl : HostId) (lanes rate : Nat), s.phase = .running ∧
      (s.link hl).st = .training ∧ s.locked (8 + hl.val) = true ∧ s.domainRuns
      (16 + hl.val) = true ∧ linkSettles (linkWidth s.bifCode hl) lanes rate = true) ∧
    (∃ (s : State) (hl : HostId), (s.link hl).st = .dlActive) ∧
    (∃ (s : State) (hl : HostId) (k : FnId), s.phase = .running ∧ s.quiet ∧ s.fnUp
      (fidOf hl 0) = true ∧ k.val ≠ 0 ∧ (s.link hl).vfEnable = false) ∧
    (∃ (s : State) (hl : HostId) (k : FnId), s.vfExists hl k = true ∧ s.fnLive
      (fidOf hl k) = true ∧ (s.fn (fidOf hl k)).ready = false) ∧
    (∃ (s : State) (hl : HostId) (f : AtsScope) (addr len : Nat) (x : Xlat),
      s.phase = .running ∧ x = ⟨fidOf hl f.fn, f.pasid.map (·.toNat), addr, len⟩ ∧ s.fnUp
      (fidOf hl f.fn) = true ∧ (s.link hl).invWait = [] ∧ s.dma = []) :=
  ⟨⟨wHl { st := .inReset }, 0, by decide +kernel⟩,
   ⟨wHl { st := .training, perstHigh := true }, 0, 4, 64, by decide +kernel⟩,
   ⟨wHl { st := .dlActive, perstHigh := true }, 0, by decide +kernel⟩,
   ⟨wRun, 0, 64, by decide +kernel⟩,
   ⟨{ wVf {} with fns := [] }, 0, 1, by decide +kernel⟩,
   ⟨wVfUp, 0, ⟨1, none⟩, 4096, 4096, ⟨1, none, 4096, 4096⟩, by decide +kernel⟩⟩

/-- What `Obligations.HostResets` asks for is met. -/
theorem test_meets_HostResets :
    (∃ (s : State) (hl : HostId), s.phase = .running ∧ s.quiet ∧ s.present hl = true ∧
      (s.link hl).st ≠ .absent ∧ (s.link hl).perstHigh = true ∧ (s.link hl).numVfs ≤ 64 ∧
      s.moulds = [] ∧ s.ctxs = []) ∧
    (∃ (s : State) (hl : HostId), s.phase = .running ∧ s.quiet ∧ s.present hl = true ∧
      ((s.link hl).st = .training ∨ (s.link hl).st = .dlActive) ∧ (s.link hl).numVfs ≤ 64 ∧
      s.moulds = [] ∧ s.ctxs = []) ∧
    (∃ (s : State) (hl : HostId), s.phase = .running ∧ s.quiet ∧ s.fnUp (fidOf hl 0) = true ∧
      (s.link hl).numVfs ≤ 64 ∧ s.moulds = [] ∧ s.ctxs = []) ∧
    (∃ (s : State) (hl : HostId) (k : FnId), s.phase = .running ∧ s.quiet ∧ s.vfExists hl
      k = true ∧ s.fnUp (fidOf hl k) = true ∧ s.moulds = [] ∧ s.ctxs = [] ∧ s.locks = []) ∧
    (∃ (s : State) (hl : HostId) (d : DmaReq), s.quiet ∧ d ∈ s.dma ∧ d.hl = hl.val) ∧
    (∃ (s : State) (hl : HostId) (f : FnId) (d : DmaReq), s.quiet ∧ d ∈ s.dma ∧ d.hl = hl.val ∧
      d.fid = fidOf hl f) ∧
    (∃ (s : State) (hl : HostId), s.quiet ∧ (s.fn (fidOf hl 0)).flr = true ∧
      (∀ d ∈ s.dma, d.hl ≠ hl.val) ∧ (∀ e ∈ s.fns, fidLink e.1 = hl.val → e.1 ≠ fidOf hl 0 →
      e.2.flr = false)) :=
  ⟨⟨wOwnedLock, 0, by decide +kernel⟩,
   ⟨wOwnedLock, 0, by decide +kernel⟩,
   ⟨wOwnedLock, 0, by decide +kernel⟩,
   ⟨wOwned, 0, 1, by decide +kernel⟩,
   ⟨{ wFn { flr := true } with dma := [wFillRead true 3] }, 0, wFillRead true 3,
     by decide +kernel⟩,
   ⟨{ wFn { flr := true } with dma := [wFillRead true 3] }, 0, 0, wFillRead true 3,
     by decide +kernel⟩,
   ⟨wFn { flr := true }, 0, by decide +kernel⟩⟩

/-- What `Obligations.DebugPort` asks for is met. -/
theorem test_meets_DebugPort :
    (∃ s : State, s.phase = .running ∧ (s.clk 23).gate = false) ∧
    (∃ s : State, s.phase = .running ∧ (s.clk 23).gated = false ∧ (s.clk 23).gateAsked = none) ∧
    (∃ s : State, s.tapOn = true ∧ s.quiet) ∧
    (∃ (s : State) (code : Nat), s.tapOn = true ∧ s.quiet ∧ 2 ≤ s.lifeCycle) ∧
    (∃ s : State, s.tapOn = true ∧ s.quiet ∧ s.lifeCycle < 2 ∧ s.phase = .debugHold ∧
      s.flash.bad = [] ∧ s.weakRows = [] ∧ s.luck.good) ∧
    (∃ s : State, s.tapOn = true ∧ s.lifeCycle < 2) :=
  ⟨⟨wTrst, by decide +kernel⟩,
   ⟨wRun, by decide +kernel⟩,
   ⟨wTap, by decide +kernel⟩,
   ⟨wTapOwner, 77, by decide +kernel⟩,
   ⟨wHold, by decide +kernel⟩,
   ⟨wTap, by decide +kernel⟩⟩

/-- What `Obligations.StepRunsFront` asks for is met. -/
theorem test_meets_StepRunsFront :
    (∃ (s : State) (c : Instr) (rest : List Instr), s.pending = c :: rest) ∧
    (∃ s : State, s.pending = []) :=
  ⟨⟨wQueued, .idpRead, [.bwWindowEnd], rfl⟩,
   ⟨wRun, rfl⟩⟩

/-- What `Obligations.CommandsGoOn` asks for is met. -/
theorem test_meets_CommandsGoOn :
    (∃ (c : Instr) (s t : State), exec c s = .next t) ∧
    (∃ (c : Instr) (s : State), c.wf = true ∧ ((∀ code, c ≠ .tapInstruction (.debug code)) ∨
      s.tapOn = false ∨ 2 ≤ s.lifeCycle)) :=
  ⟨⟨.fillFlitSend 0, State.reset, wAfter (.fillFlitSend 0) State.reset, rfl⟩,
   ⟨.idpRead, wRun, rfl, .inl fun _ h => nomatch h⟩⟩

/-- What `Obligations.ResetValues` asks for is met. -/
theorem test_meets_ResetValues :
    (∃ k : Nat, k < 4) ∧
    (∃ f : FnId, f.val ≠ 0) :=
  ⟨⟨3, by decide +kernel⟩,
   ⟨64, by decide +kernel⟩⟩

/-- What `Obligations.FlitRoundTrip` asks for is met. -/
theorem test_meets_FlitRoundTrip :
    (∃ f : Flit, f.ftype < 16 ∧ f.vc < 16 ∧ f.start < 16 ∧ f.used < 16 ∧ f.cvcA < 16 ∧
      f.cvcB < 16 ∧ f.climA < 2 ^ 16 ∧ f.climB < 2 ^ 16 ∧ f.payload.length = 240) ∧
    (∃ (n : Nat) (flits : List Bytes), (∀ bs ∈ flits, bs.length = 256) ∧ flits.length = n /
      2048) :=
  ⟨⟨wFullFlit, by decide +kernel⟩,
   ⟨4097, [zeros 256, fillFlit], by decide +kernel⟩⟩

/-- What `Obligations.PacketRoundTrip` asks for is met. -/
theorem test_meets_PacketRoundTrip :
    (∃ p : Pkt, p.wf = true) ∧
    (∃ bs : Bytes, 32 ≤ bs.length) ∧
    (∃ r : CapRec, r.verMax < 256 ∧ r.verMin < 256 ∧ r.pvcCount < 256 ∧ r.nodeId < 2 ^ 18 ∧
      r.machineId < 2 ^ 16 ∧ r.partMask < 2 ^ 16 ∧ r.replayDepth < 2 ^ 16 ∧ r.hbUnits < 256 ∧
      r.mode < 64 ∧ r.refuse < 256) :=
  ⟨⟨wTiny, by decide +kernel⟩,
   ⟨zeros 32, by decide +kernel⟩,
   ⟨{ nodeId := 2 ^ 18 - 1, machineId := 65535, partMask := 65535, mode := 63, refuse := 255 },
     by decide +kernel⟩⟩

set_option maxRecDepth 20000 in
/-- What `Obligations.FecAsBadCrc` asks for is met. -/
theorem test_meets_FecAsBadCrc :
    ∃ (raw bad : Bytes) (_corr : List Nat), raw.length = 256 ∧ bad.length = 256 ∧ crcGood
      bad = false :=
  ⟨wDataFlit, zeros 256, [1], by decide +kernel⟩

/-- What `Obligations.QuenchStopsWork` asks for is met. -/
theorem test_meets_QuenchStopsWork :
    ∃ (c : Instr) (s : State), c.works = true ∧ s.live = false ∧ s.quiet :=
  ⟨.pourArm 1023, wStopped, by decide +kernel⟩

/-- What `Obligations.QuenchIsLatched` asks for is met. -/
theorem test_meets_QuenchIsLatched :
    (∃ s t : State, s.quench = true ∧ (∀ c rest, s.pending = c :: rest →
      c.resetsPackage = false) ∧ s.luck.powerCut = false ∧ step s = .next t) ∧
    (∃ s t : State, (∀ c, (s.lock c).waiters.length ≤ 32) ∧ step s = .next t) ∧
    (∃ s t : State, s.xfers.length ≤ 4 ∧ step s = .next t) :=
  ⟨⟨wStopped, { wStopped with toBlock := wStopped.toBlock.tick }, rfl, (fun _ _ h => by cases h),
    rfl, rfl⟩,
   ⟨wCellFull, { wCellFull with toBlock := wCellFull.toBlock.tick }, (fun c =>
     (Nat.decEq c 7).byCases (fun h => h ▸ by decide) (fun h => by simp [wCellFull, wCell,
     Block.lock, Tbl.get, Ne.symm h])), rfl⟩,
   ⟨wXferFull, { wXferFull with toBlock := wXferFull.toBlock.tick }, by decide +kernel, rfl⟩⟩

/-- What `Obligations.LockCellsInQuench` asks for is met. -/
theorem test_meets_LockCellsInQuench :
    (∃ (s : State) (hl : HostId) (f : FnId) (cell : Fin 256) (w : BitVec 64), s.quench = true ∧
      s.quiet) ∧
    (∃ (s : State) (hl : HostId) (f : FnId) (cell : Fin 256), s.quench = true ∧ s.quiet ∧
      s.phase = .running ∧ s.fnUp (fidOf hl f) = true ∧ s.cellOf hl cell = true) :=
  ⟨⟨wStopped, 0, 0, 255, 1, by decide +kernel⟩,
   ⟨wStopped, 0, 0, 55, by decide +kernel⟩⟩

/-- What `Obligations.SetModeRule` asks for is met. -/
theorem test_meets_SetModeRule :
    (∃ (s : State) (hl : HostId) (cell : Fin 256) (w : BitVec 64), s.lockReach (fidOf hl 0) cell
      w.toNat 7 ∧ (s.lock cell).held = false ∧ (s.lock cell).waiters = [] ∧ bits w.toNat 49
      48 ≠ 3) ∧
    (∃ (s : State) (hl : HostId) (f : FnId) (cell : Fin 256) (w : BitVec 64), s.lockReach
      (fidOf hl f) cell w.toNat 7 ∧ s.muted (blkHl hl) 8 ∧ (f.val ≠ 0 ∨
      (s.lock cell).held = true ∨ (s.lock cell).waiters ≠ [])) :=
  ⟨⟨wCell0, 0, 5, 0x0002000000000007, by decide +kernel⟩,
   ⟨wVfCell, 0, 1, 5, 0x0002000000000007, by decide +kernel⟩⟩

/-- What `Obligations.ReplayAcrossReset` asks for is met. -/
theorem test_meets_ReplayAcrossReset :
    (∃ (b : Block) (p seq : Nat), b.flash.floors.length = 3 ∧ p < 3 ∧ nth 0 b.flash.floors
      p < seq) ∧
    (∃ (b : Block) (p v : Nat), p < 3 ∧ v < nth 0 b.flash.floors p ∧ nth 0 b.flash.floors p ≤ v
      + 64) ∧
    (∃ (b : Block) (p seq v : Nat), b.flash.floors.length = 3 ∧ p < 3 ∧ v ≤ seq) ∧
    (∃ s t : State, s.bootMode ≠ 3 ∧ s.rstAsked = true ∧ s.mnetWait = [] ∧ s.phase ≠ .held ∧
      s.phase ≠ .dead ∧ exec (.chipReset .chipResetWrite) s = .next t) ∧
    (∃ (s t : State) (p : Nat), s.floorsHold ∧ step s = .next t ∧ p < 3 ∧ p ∉ rekeyed
      s.lifeCycle t.lifeCycle) ∧
    (∃ (s t : State) (st : Straps), st.bootMode ≠ 3 ∧ s.porstLow = true ∧ s.railHold = false ∧
      exec (.porstRelease st) s = .next t) :=
  ⟨⟨wFloors.toBlock, 2, 8193, by decide +kernel⟩,
   ⟨wFloors.toBlock, 2, 8128, by decide +kernel⟩,
   ⟨wFloors.toBlock, 0, 4096, 4096, by decide +kernel⟩,
   ⟨wAsked, wAfter (.chipReset .chipResetWrite) wAsked, four (by decide +kernel)
     ⟨by decide +kernel, rfl⟩⟩,
   ⟨wFloors, { wFloors with toBlock := wFloors.toBlock.tick }, 2, by decide +kernel, rfl,
     by decide +kernel⟩,
   ⟨State.reset, wAfter (.porstRelease ⟨1, 2, false⟩) State.reset, ⟨1, 2, false⟩,
     by decide +kernel, by decide +kernel, by decide +kernel, rfl⟩⟩

/-! ## Tests -/

/-! ### The manual's worked examples -/

/-- Chapter 2: node 0x0_0A41 with endpoint 0x0005 has FA 0x0290_4005. -/
theorem test_fabric_address : mkFa 0x00A41 5 = 0x02904005 := by decide

/-- Chapter 2, "Worked route encoding": the route at injection. -/
def wRoute : Pkt := { hops := [0x20#8, 0x20#8, 0x44#8] ++ zeros 29, cw := 0x1880, rest := [] }

theorem test_route_encoding :
    wRoute.encode = [0x20#8, 0x20#8, 0x44#8, 0, 0, 0, 0, 2, 0, 0, 0, 2, 2] ++ zeros 19 := by
  decide +kernel

theorem test_route_decoding :
    (Pkt.decode ([0x22#8, 0x22#8, 0x44#8, 0, 0, 0, 0, 2, 0, 0, 0, 2, 0, 0, 0, 2] ++ zeros 16)).ptr = 3 ∧
    (Pkt.decode ([0x22#8, 0x22#8, 0x44#8, 0, 0, 0, 0, 2, 0, 0, 0, 2, 0, 0, 0, 2] ++ zeros 16)).heat = 17 := by
  decide +kernel

/-- Chapter 2, "Worked data header": `HDR0`. -/
theorem test_data_header : mkHdr0 1 1 0 false 0 19 2 = 0x00826041 := by decide

/-- Chapter 3, "Worked flits": the header of flit 0x01F4. -/
theorem test_flit_header :
    (Flit.body { ftype := 1, vc := 1, start := 4, used := 8, cvcA := 3, seq := 0x01F4, ack := 0x0A10,
                 climA := 0x0810, cvcB := 8, climB := 0x2000 }).take 12 =
      [0x01#8, 0x41#8, 0x38#8, 0xF4#8, 0x01#8, 0x10#8, 0x0A#8, 0x10#8, 0x08#8, 0x08#8, 0x00#8,
       0x20#8] := by decide +kernel

/-- The check value of CRC-32 with R66's parameters, over the digits 1 to 9. -/
theorem test_crc32 :
    crc32 [0x31, 0x32, 0x33, 0x34, 0x35, 0x36, 0x37, 0x38, 0x39] = 0xCBF43926#32 := by
  decide +kernel

/-- Chapter 4, "Worked path-book entry" and "Worked splice". -/
def wEntry : Bytes :=
  [0x40#8, 0x26#8, 0x24#8, 0, 0, 0x02#8] ++ zeros 26 ++
  [0x20#8, 0x22#8, 0x44#8, 0, 0, 0x02#8] ++ zeros 26 ++
  [0x20#8, 0x46#8, 0x24#8, 0, 0, 0x02#8, 0, 0, 0, 0, 0x02#8] ++ zeros 53

/-- A router with that entry, its ports P2 and P4 up. -/
def wRouter : State :=
  { wRun with ports := [(2, { st := .active }), (4, { st := .active })], paths := [(0xA91, wEntry)] }

theorem test_path_entry :
    (pathOf wEntry 1).valid = true ∧ (pathOf wEntry 1).last = 2 ∧ (pathOf wEntry 2).bias = 4 ∧
    (pathOf wEntry 3).valid = false ∧
    (pathOf wEntry 1).route = [0x20#8, 0x20#8, 0x44#8] ++ zeros 29 := by decide +kernel

theorem test_path_choice :
    wRouter.choosePath 0xA91 0 false (nth 0 [40, 12, 9, 0]) (fun _ => false) 3 =
      .path 1 (pathOf wEntry 1) ∧
    wRouter.choosePath 0xA91 0 false (nth 0 [40, 13, 9, 0]) (fun _ => false) 1 =
      .path 2 (pathOf wEntry 2) := by decide +kernel

theorem test_splice :
    (Pkt.splice (Pkt.decode ([0x22#8, 0x20#8, 0x44#8, 0, 0, 0, 0, 2, 0, 0, 0, 2, 2] ++ zeros 19))
      ([0x4C#8, 0x2C#8, 0x5C#8, 0, 0, 0, 0, 0, 3#8] ++ zeros 7)).encode =
      [0x22#8, 0x4D#8, 0x2D#8, 0x5D#8, 0x4C#8, 0, 0, 0, 2, 0, 0, 2, 2] ++ zeros 19 := by
  decide +kernel

/-- Chapter 10: the PUT of the lost-acknowledgement example, and its completion. -/
def wPutDesc : Bytes :=
  [0x03#8, 0x02#8, 0, 0, 0x12#8, 0x04#8, 0, 0, 0x77#8, 0, 0, 0, 0, 0, 0, 0] ++ zeros 48

theorem test_descriptor :
    entOwner wPutDesc = true ∧ entPhase wPutDesc = true ∧ entOpcode wPutDesc = 2 := by decide +kernel

theorem test_completion :
    mkCompletion wPutDesc 0 [] 0x1200000400 =
      [0x06#8, 0x02#8, 0, 0, 0x12#8, 0x04#8, 0, 0, 0x77#8, 0, 0, 0, 0, 0, 0, 0] ++ zeros 40 ++
      [0, 0x04#8, 0, 0, 0x12#8, 0, 0, 0] := by decide +kernel

/-- Chapter 12, the same four values on two trees: 1.0, 2^-53 twice and 0 as FP64. -/
def wOne : Bytes := toLe 8 0x3FF0000000000000
def wSmall : Bytes := toLe 8 0x3CA0000000000000

theorem test_ordered_sum :
    (combineOne 0x0116 (combineOne 0x0116 wOne (combineOne 0x0116 wSmall wSmall).1).1 (zeros 8)).1 =
      toLe 8 0x3FF0000000000001 ∧
    (combineOne 0x0116 wSmall
      (combineOne 0x0116 wSmall (combineOne 0x0116 wOne (zeros 8)).1).1).1 = wOne := by decide +kernel

theorem test_binned_sum :
    (combineAll 0x0119 [encodeRange 9 wOne, encodeRange 9 wSmall, encodeRange 9 wSmall,
        encodeRange 9 (zeros 8)]).1 =
      [0, 0, 0, 0, 4#8, 0, 0, 0, 1#8] ++ zeros 16 ++ [0x10#8] ++ zeros 6 ∧
    (decodeRange 9 ([0, 0, 0, 0, 4#8, 0, 0, 0, 1#8] ++ zeros 16 ++ [0x10#8] ++ zeros 6)).1 =
      toLe 8 0x3FF0000000000001 := by decide +kernel

/-- Chapter 15, "Worked exchanges": the node ID is read. -/
def wNodeRead : IdpReq :=
  ⟨.t1s 5, [1#8, 1#8, 0, 0, 1#8, 1#8] ++ zeros 10 ++ [0x10#8, 0x10#8] ++ zeros 14, false⟩

theorem test_read_node_id :
    (wAfter .idpRead { wIdp wNodeRead with dict := [(0x1010 * 256, 0x00A41)] }).out =
      [.t1sFrame wRun.plcaRole
        { dst := 5, src := wRun.fuses.macAddr, vlan := false, etherType := 0x88B5,
          payload :=
            [0x49#8, 0x44#8, 1#8, 1#8, 1#8, 0, 1#8, 1#8] ++ zeros 10 ++ [0x10#8, 0x10#8] ++
              zeros 6 ++ [4#8, 0, 0, 0, 4#8, 0, 0, 0, 0x41#8, 0x0A#8, 0, 0] ++ zeros 8 }] := by
  decide +kernel

/-- Chapter 3: bytes enter the stream least significant bit first, and a group of fewer bits than a flit
has holds none (R62). -/
theorem test_stream :
    byteBits [0x01#8, 0x82#8] =
      [true, false, false, false, false, false, false, false,
       false, true, false, false, false, false, false, true] ∧
    bitsByte [true, false, true, true, false, false, false, false] = 0x0D#8 ∧
    groupFlits [true, true] = [] ∧ groupStream 3 [] = [false, false, false] := by decide +kernel

/-- Chapter 22: LINKUP_Hn_N is low in DL_Active alone (R488). -/
theorem test_linkup :
    ({ wRun with links := [(1, { st := .dlActive })] } : State).linkupLow 1 = true ∧
    ({ wRun with links := [(1, { st := .training })] } : State).linkupLow 1 = false ∧
    ({ wRun with links := [(1, { st := .dlActive })], quench := true } : State).linkupLow 1 =
      false := by decide +kernel

/-- FIPS 180-4's example: SHA-256 of "abc" begins BA7816BF. -/
theorem test_sha256 : (sha256 [0x61, 0x62, 0x63]).take 4 = [0xBA#8, 0x78#8, 0x16#8, 0xBF#8] := by
  decide +kernel

/-! ### Commands that are not well formed -/

theorem test_wf_flit : (Instr.flitReceived 0 (zeros 255) ⟨true, []⟩).wf = false := by decide +kernel
theorem test_wf_flit_lanes : (Instr.flitReceived 0 (zeros 256) ⟨true, [0, 0, 0, 0, 1]⟩).wf = false := by
  decide +kernel
theorem test_wf_poll : (Instr.poll 0 (some [zeros 64, zeros 63])).wf = false := by decide +kernel
theorem test_wf_eq_read : (Instr.eqFreeRead 0 (some [[]])).wf = false := by decide +kernel
theorem test_wf_write_size : (Instr.registerWrite .sp 0 3 0).wf = false := by decide +kernel
theorem test_wf_write_value : (Instr.registerWrite .sp 0 4 0x100000000).wf = false := by
  decide +kernel
theorem test_wf_read_size : (Instr.reservedRead .sp 0 16).wf = false := by decide +kernel
theorem test_wf_scrub_row : (Instr.scrub 0 0 2048 0 .clean).wf = false := by decide +kernel
theorem test_wf_scrub_word : (Instr.scrub 0 0 0 8 .clean).wf = false := by decide +kernel
theorem test_wf_lanes : (Instr.dlActive 0 3 8).wf = false := by decide +kernel
theorem test_wf_fill_key : (Instr.pantryFillDone true 0x4000000 .good).wf = false := by
  decide +kernel
theorem test_wf_vf_flr : (Instr.vfFlr 0 0).wf = false := by decide +kernel
theorem test_wf_vf_ready : (Instr.vfReady 0 0).wf = false := by decide +kernel
theorem test_wf_acquire : (Instr.acquire 0 0 0 0x10002).wf = false := by decide +kernel
theorem test_wf_try : (Instr.tryLock 0 0 0 1).wf = false := by decide +kernel
theorem test_wf_release : (Instr.release 0 0 0 0).wf = false := by decide +kernel
theorem test_wf_cancel : (Instr.cancel 0 0 0 3).wf = false := by decide +kernel
theorem test_wf_claim : (Instr.claim 0 0 0 4).wf = false := by decide +kernel
theorem test_wf_force_release : (Instr.forceRelease 0 0 0 7).wf = false := by decide +kernel
theorem test_wf_set_mode : (Instr.setMode 0 0 0 6).wf = false := by decide +kernel
theorem test_wf_good : (Instr.setMode 0 0 0 0x0002000000000007).wf = true ∧
    (Instr.flitReceived 15 (zeros 256) ⟨false, [0, 1, 2, 3]⟩).wf = true ∧
    (Instr.registerWrite .sp 0 4 0xFFFFFFFF).wf = true := by decide +kernel

/-- R263: the old value of a 32-bit ATOMIC leaves bytes 20 to 23 zero. -/
theorem test_atomic_old_32 :
    fld (mkCompletion (zeros 64) 0
      (Op.result_ { kind := .atomic, hl := 0, fid := 0, desc := zeros 64,
                    result := List.replicate 8 0xFF#8 }) 0) 16 8 = 0xFFFFFFFF := by decide +kernel

/-- R514: a second copy waits at the context while the first waits in the fill stash. -/
theorem test_copy_waits :
    ∃ t, exec (.putPacket 1) (wGot (wConn { wCtx with stashed := [wPut.pkt.psn] }) wPut) = .next t ∧
      (t.ctx 5).waiting.map (·.pkt) = [wPut.pkt] := ⟨_, rfl, by decide +kernel⟩

end Sys2Proof.Tests
end

section
/-! ## What a fault source without a reaction leaves behind

R394, R395: raising a source whose mask is 0 records it; its reaction, which waits in `reacts`, then
does nothing when the step settles. -/

namespace Sys2Proof.Machine

/-- A reaction that calls for nothing: an empty mask, and a source that brings no quench of itself. -/
def Reaction.idle (r : Reaction) : Prop := r.mask = 0 ∧ r.quench = false ∧ r.critical = false

theorem Block.react1_idle {r : Reaction} (h : r.idle) (b : Block) : b.react1 r = b := by
  obtain ⟨hm, hq, hc⟩ := h
  have quenches : r.quenches = false := by simp [Reaction.quenches, hm, hq, hc, bit]
  have tells : b.reactTell r = b := by simp [Block.reactTell, hm, bit]
  simp [Block.react1, tells, quenches, Reaction.resets, hm, bit]

/-- A block that only an idle reaction keeps from being quiet drains by dropping it. -/
theorem Block.drain_idle {b : Block} {r : Reaction} (h : r.idle) (hq : b.quiet) (n : Nat) :
    Block.drain (n + 1) { b with reacts := [r] } = b := by
  have dropped : ({ b with reacts := [] } : Block) = b := by rw [← hq.1]
  calc Block.drain (n + 1) { b with reacts := [r] }
      = Block.drain n (Block.react1 { b with reacts := [] } r) := rfl
    _ = b := by rw [Block.react1_idle h, dropped, Block.drain_none hq.1 hq.2.1]

theorem Block.settle_of_drain {b c : Block} (due : b.reactDue = []) (h : b.drain drainFuel = c)
    (hq : c.quiet) : b.settle = c := by
  have drained : b.drain drainFuel = c.drain drainFuel := by rw [h, Block.drain_none hq.1 hq.2.1]
  obtain ⟨-, -, -, -, -, -, due', -, -⟩ := id hq
  calc b.settle = c.settle := by
        simp only [Block.settle, due, due', List.isEmpty_nil, if_true, drained]
    _ = c := Block.settle_quiet hq

theorem runR_idle {f : Block → Block} {s : State} {b : Block} {r : Reaction} (h : r.idle)
    (hb : f s.toBlock = { b with reacts := [r] }) (hq : b.quiet) :
    runR f s = .next { s with toBlock := b } := by
  obtain ⟨-, -, -, -, -, -, due, -, -⟩ := id hq
  have settled : Block.settle { b with reacts := [r] } = b :=
    Block.settle_of_drain due (Block.drain_idle h hq 4095) hq
  simp only [runR, hb, settled]

theorem Block.maskOf_muted {b : Block} {blk src : Nat} (h : b.muted blk src) :
    b.maskOf blk src = 0 := by
  simp [Block.maskOf, h.2]

/-- Raising a source that calls for no reaction writes its record and queues an empty reaction. -/
theorem Block.raiseAs_muted {b : Block} {blk src : Nat} (h : b.muted blk src)
    (unit detail : Nat) (fid : Option Nat) :
    ∃ x : Flt, b.raiseAs blk src unit detail false fid =
        { b.setFlt blk x with
          reacts := b.reacts ++ [⟨srcCode blk src unit, blk, src, 0, fid, false⟩] } ∧
      flagged blk src unit b (b.setFlt blk x) := by
  obtain ⟨info, hi⟩ := Option.isSome_iff_exists.mp h.1
  simp only [Block.raiseAs, hi, Block.maskOf_muted h, bit, Nat.zero_testBit, Bool.and_false,
    Bool.false_eq_true, if_false]
  refine ⟨_, rfl, ?_⟩
  simp only [flagged, Block.fltOf_setFlt_self]
  refine ⟨?_, fun h0 => ?_, fun h0 => ?_, fun k hk => Block.fltOf_setFlt_ne _ _ _ hk⟩
  · split <;> split <;> rfl
  · simp only [h0, if_true]; split <;> exact ⟨rfl, rfl⟩
  · simp only [h0, if_false]; split <;> exact ⟨rfl, rfl⟩

/-- The record of a bad access in `FN_BAD_ACCESS`: the first one stays (R224, R225). -/
def Fn.recordBad (f : Fn) (off kind : Nat) (write : Bool) : Fn :=
  { f with badAccess := if f.badAccess.getLsbD 31 then f.badAccess
      else BitVec.ofNat 32 (off % 2 ^ 26 + kind * 2 ^ 26 + b2n write * 2 ^ 28 + 2 ^ 31) }

/-- The reaction that a bad access of function `fid` queues where BAD_ACCESS is muted. -/
def badAccessReaction (fid : Nat) : Reaction :=
  ⟨srcCode (blkHl (fidLink fid)) 1 noUnit, blkHl (fidLink fid), 1, 0, some fid, false⟩

theorem badAccessReaction_idle (fid : Nat) : (badAccessReaction fid).idle :=
  ⟨rfl, rfl, by simp [Reaction.critical, badAccessReaction]⟩

/-- A bad access outside quench is recorded in its function and in the block of its controller. -/
theorem Block.badAccess_muted {b : Block} {fid : Nat} (hr : b.reacts = []) (hn : b.quench = false)
    (h : b.muted (blkHl (fidLink fid)) 1) (off kind : Nat) (write : Bool) :
    ∃ x : Flt, b.badAccess fid off kind write =
        { (b.modFn fid fun f => f.recordBad off kind write).setFlt (blkHl (fidLink fid)) x with
          reacts := [badAccessReaction fid] } ∧
      flagged (blkHl (fidLink fid)) 1 noUnit b (b.setFlt (blkHl (fidLink fid)) x) := by
  have noted : b.badAccess fid off kind write =
      (b.modFn fid fun f => f.recordBad off kind write).raiseAs (blkHl (fidLink fid)) 1 noUnit off
        false (some fid) := by
    simp only [Block.badAccess, hn, Bool.false_eq_true, if_false, Fn.recordBad, Block.modFn]
    congr 2
    split <;> rfl
  obtain ⟨x, hx, hflag⟩ :=
    Block.raiseAs_muted (b := b.modFn fid fun f => f.recordBad off kind write) h noUnit off (some fid)
  have none_before : (b.modFn fid fun f => f.recordBad off kind write).reacts = [] := hr
  rw [none_before] at hx
  exact ⟨x, noted.trans hx, hflag⟩

end Sys2Proof.Machine
end

section
/-! ## How an access finds its register, and what it then does (R202, R223 to R225) -/

namespace Sys2Proof.Machine

/-! ### Functions -/

@[simp] theorem fidLink_fidOf (hl : Nat) (f : FnId) : fidLink (fidOf hl f) = hl := by
  simp only [fidLink, fidOf]; omega

@[simp] theorem fidFn_fidOf (hl : Nat) (f : FnId) : fidFn (fidOf hl f) = f := by
  simp only [fidFn, fidOf]; omega

theorem Block.live_iff {b : Block} : b.live = true ↔ b.phase = .running ∧ b.quench = false := by
  simp [Block.live]

theorem Block.link_st_of_fnThere {b : Block} {fid : Nat} (h : b.fnThere fid = true) :
    (b.link (fidLink fid)).st = .dlActive := by
  simp only [Block.fnThere, Bool.and_eq_true, beq_iff_eq] at h
  obtain ⟨⟨⟨⟨-, active⟩, -⟩, -⟩, -⟩ := h
  exact active

theorem Block.fnThere_of_fnUp {b : Block} {fid : Nat} (h : b.fnUp fid = true) :
    b.fnThere fid = true := by
  simp only [Block.fnUp, Bool.and_eq_true] at h
  exact h.1

/-- A function that is there is not asked to retry. -/
theorem Block.cfgRetry_of_fnThere {b : Block} {fid : Nat} (h : b.fnThere fid = true) :
    b.cfgRetry fid = false := by
  simp [Block.cfgRetry, h]

/-! ### Finding the register -/

theorem Block.find_arg (b : Block) (fid : Nat) (k : Fin 4) :
    b.find fid (0x100 + 8 * k) 8 = .wide := by
  have aligned : (0x100 + 8 * k.val) % 8 = 0 := by omega
  have wide : b.isWide fid (0x100 + 8 * k) = true := by
    simp only [Block.isWide, aligned, beq_self_eq_true, Bool.and_true, Bool.or_eq_true,
      Bool.and_eq_true, decide_eq_true_eq]
    omega
  simp [Block.find, aligned, wide]

theorem Block.find_time (b : Block) (fid : Nat) : b.find fid 0x28 8 = .wide := by
  simp [Block.find, Block.isWide]

theorem Block.find_time_lower (b : Block) (fid : Nat) : b.find fid 0x28 4 = .lower := by
  simp [Block.find, Block.isWide]

theorem Block.find_time_upper (b : Block) (fid : Nat) : b.find fid 0x2C 4 = .upper := by
  simp [Block.find, Block.isWide]

theorem Block.find_evtQueue (b : Block) (fid : Nat) : b.find fid 0x10 4 = .word := by
  simp [Block.find, Block.isWide, Block.wordRead]

/-- Offset 0x0C of every function's page is reserved (R222). -/
theorem Block.find_reserved (b : Block) (fid : Nat) : b.find fid 0x0C 4 = .bad 0 := by
  simp [Block.find, Block.isWide, Block.wordRead]

/-! ### Reads of BAR0, where the function answers -/

section
variable {b : Block} {fid : Nat} (hp : b.phase = .running) (hu : b.fnUp fid = true)
include hp hu

theorem Block.hostRead_bad (who : Accessor) {off size k : Nat} (h : b.find fid off size = .bad k) :
    b.hostRead who fid off size = (b.badAccess fid off k false).abortRead who fid off := by
  simp [Block.hostRead, hp, hu, Block.link_st_of_fnThere (Block.fnThere_of_fnUp hu), h]

theorem Block.hostRead_wide (who : Accessor) {off size : Nat} (h : b.find fid off size = .wide) :
    b.hostRead who fid off size = b.emit (.regData who off (b.wideRead fid off)) := by
  simp [Block.hostRead, hp, hu, Block.link_st_of_fnThere (Block.fnThere_of_fnUp hu), h]

theorem Block.hostRead_lower (who : Accessor) {off size : Nat} (h : b.find fid off size = .lower) :
    b.hostRead who fid off size =
      (b.modFn fid fun f => { f with
          latch := Tbl.set none f.latch off (some (BitVec.ofNat 32 (b.wideRead fid off / 2 ^ 32))) }).emit
        (.regData who off (b.wideRead fid off % 2 ^ 32)) := by
  simp [Block.hostRead, hp, hu, Block.link_st_of_fnThere (Block.fnThere_of_fnUp hu), h]

theorem Block.hostRead_latched (who : Accessor) {off size : Nat} {w : BitVec 32}
    (h : b.find fid off size = .upper) (hw : Tbl.get none (b.fn fid).latch (off - 4) = some w) :
    b.hostRead who fid off size =
      (b.modFn fid fun f => { f with latch := Tbl.set none f.latch (off - 4) none }).emit
        (.regData who off w.toNat) := by
  simp [Block.hostRead, hp, hu, Block.link_st_of_fnThere (Block.fnThere_of_fnUp hu), h, hw]

end

/-- An aborted read sets bit 15 of the uncorrectable errors that AER records (R202, log 153). -/
theorem Block.fn_abortRead_self (b : Block) (who : Accessor) (fid off : Nat) :
    (b.abortRead who fid off).fn fid = { b.fn fid with
      aer := { (b.fn fid).aer with uncStatus := (b.fn fid).aer.uncStatus ||| (1#32 <<< 15) } } :=
  Block.fn_setFn_self _ _ _

theorem Block.fn_abortRead_ne (b : Block) (who : Accessor) (off : Nat) {fid k : Nat} (h : k ≠ fid) :
    (b.abortRead who fid off).fn k = b.fn k :=
  Block.fn_setFn_ne _ _ _ h

theorem Block.wideRead_time (b : Block) (fid : Nat) : b.wideRead fid 0x28 = b.ftime % 2 ^ 64 := by
  simp [Block.wideRead]

/-! ### Writes of BAR0, where the function takes them -/

section
variable {b : Block} {fid : Nat} (hl : b.live = true) (hu : b.fnUp fid = true)
include hl hu

theorem Block.hostStore_bad {off size k : Nat} (h : b.find fid off size = .bad k) (v : Nat) :
    b.hostStore fid off size v = b.badAccess fid off k true := by
  simp [Block.hostStore, hl, hu, h]

theorem Block.hostStore_wide {off size : Nat} (h : b.find fid off size = .wide) (v : Nat) :
    b.hostStore fid off size v = b.wideWrite fid off off v := by
  simp [Block.hostStore, hl, hu, h]

theorem Block.hostStore_word {off size : Nat} (h : b.find fid off size = .word) (v : Nat) :
    b.hostStore fid off size v = b.wordWrite fid off v := by
  simp [Block.hostStore, hl, hu, h]

end

theorem Block.wideWrite_arg (b : Block) (fid at_ : Nat) (k : Fin 4) (v : Nat) :
    b.wideWrite fid at_ (0x100 + 8 * k) v =
      b.modFn fid fun f => { f with args := f.args.set k (BitVec.ofNat 64 v) } := by
  have other : ¬(0x100 + 8 * k.val = 0x28 ∨ 0x100 + 8 * k.val = 0x148 ∨ 0x100 + 8 * k.val = 0x150) := by
    omega
  have below : 0x100 + 8 * k.val < 0x1000 := by omega
  have index : (0x100 + 8 * k.val - 0x100) / 8 = k := by omega
  simp only [Block.wideWrite, other, below, index, if_true, if_false]

/-- `EVT_QUEUE` takes its 16 bits into the shadow copy (R13), which ends a parity error there (R230). -/
theorem Block.wordWrite_evtQueue (b : Block) (fid : Nat) {v : Nat} (h : v < 2 ^ 16) :
    b.wordWrite fid 0x10 v = b.modFn fid fun f =>
      { f with evtQueueSh := BitVec.ofNat 32 v, spoilt := f.spoilt.filter fun o => o != 0x10 } := by
  show (b.recordIf (v / 2 ^ 16 != 0) fid 0x10).modFn fid (fun f =>
      { f with evtQueueSh := BitVec.ofNat 32 (v % 2 ^ 16), spoilt := f.spoilt.filter fun o => o != 0x10 }) = _
  rw [Nat.div_eq_of_lt h, Nat.mod_eq_of_lt h]
  rfl

/-! ### Configuration space -/

theorem Block.cfgRead_there {b : Block} {fid : Nat} (hp : b.phase = .running)
    (h : b.fnThere fid = true) (who : Accessor) (addr : Nat) :
    b.cfgRead who fid addr = b.emit (.regData who addr (b.cfgWord fid addr)) := by
  simp [Block.cfgRead, Block.cfgRetry_of_fnThere h, hp, h]

theorem Block.cfgWord_deviceId (b : Block) (hl : HostId) (f : FnId) :
    b.cfgWord (fidOf hl f) 17 = if f.val = 0 then 0x6416 else 0x6417 := by
  simp [Block.cfgWord]

theorem Block.cfgStore_d3hot {b : Block} {fid : Nat} (hp : b.phase = .running)
    (h : b.fnThere fid = true) (who : Accessor) :
    b.cfgStore who fid 5 3 = b.modFn fid fun f => { f with d3hot := true } := by
  simp [Block.cfgStore, Block.cfgRetry_of_fnThere h, hp, h, Block.setPower]

end Sys2Proof.Machine
end

section
/-! ## Accesses as commands

The outcomes of an access that changes one function, that answers, and that is refused. -/

namespace Sys2Proof.Machine

theorem exec_registerWrite_fn (hl : HostId) (f : FnId) (addr size : Nat) (v : BitVec 64) (s : State) :
    exec (.registerWrite (.fn hl f) addr size v) s =
      runR (fun b => b.hostStore (fidOf hl f) addr size (v.toNat % 256 ^ size)) s := rfl

theorem exec_registerWrite_cfg (hl : HostId) (f : FnId) (addr size : Nat) (v : BitVec 64)
    (s : State) : exec (.registerWrite (.cfg hl f) addr size v) s =
      runR (fun b => b.cfgStore (.cfg hl f) (fidOf hl f) addr v.toNat) s := rfl

theorem exec_reservedRead_fn (hl : HostId) (f : FnId) (addr size : Nat) (s : State) :
    exec (.reservedRead (.fn hl f) addr size) s =
      runR (fun b => b.hostRead (.fn hl f) (fidOf hl f) addr size) s := rfl

theorem exec_reservedRead_cfg (hl : HostId) (f : FnId) (addr size : Nat) (s : State) :
    exec (.reservedRead (.cfg hl f) addr size) s =
      runR (fun b => b.cfgRead (.cfg hl f) (fidOf hl f) addr) s := rfl

/-- The lower half of `TIME` is read as any other register is. -/
theorem exec_lowerHalfRead_time (hl : HostId) (f : FnId) (s : State) :
    exec (.lowerHalfRead (.fn hl f) 0x28) s =
      runR (fun b => b.hostRead (.fn hl f) (fidOf hl f) 0x28 4) s := rfl

section
variable {s : State} {fid : Nat} (hq : s.quiet)
include hq

/-- The outcome of a command that answers and changes nothing else. -/
theorem runR_emit {f : Block → Block} {o : Out} (h : f s.toBlock = s.emit o) :
    runR f s = .next { s with out := s.out ++ [o] } := by
  rw [runR_quiet f s (h ▸ hq), h]
  rfl

/-- The outcome of a command that changes one function alone. -/
theorem runR_setFn {f : Block → Block} {x : Fn} (h : f s.toBlock = s.setFn fid x) :
    ∃ t : State, runR f s = .next t ∧ t.fn fid = x ∧ (∀ k, k ≠ fid → t.fn k = s.fn k) ∧
      t = { s with fns := t.fns } := by
  refine ⟨_, runR_quiet f s (h ▸ hq), ?_⟩
  rw [h]
  exact ⟨Block.fn_setFn_self _ _ _, fun k hk => Block.fn_setFn_ne _ _ _ hk, rfl⟩

/-- The outcome of a command that changes one function and answers. -/
theorem runR_setFn_emit {f : Block → Block} {x : Fn} {o : Out}
    (h : f s.toBlock = (s.setFn fid x).emit o) :
    ∃ t : State, runR f s = .next t ∧ t.out = s.out ++ [o] ∧ t.fn fid = x ∧
      (∀ k, k ≠ fid → t.fn k = s.fn k) ∧ t = { s with fns := t.fns, out := t.out } := by
  refine ⟨_, runR_quiet f s (h ▸ hq), ?_⟩
  rw [h]
  exact ⟨rfl, Block.fn_setFn_self _ _ _, fun k hk => Block.fn_setFn_ne _ _ _ hk, rfl⟩

variable {hl : Nat} (hf : fidLink fid = hl) (hn : s.quench = false) (hm : s.muted (blkHl hl) 1)
include hf hn hm

/-- The outcome of a write that is dropped and recorded (R225). -/
theorem runR_badAccess {f : Block → Block} {off kind : Nat} {write : Bool}
    (h : f s.toBlock = s.badAccess fid off kind write) :
    ∃ t : State, runR f s = .next t ∧
      flagged (blkHl hl) 1 noUnit s.toBlock t.toBlock ∧
      t.fn fid = (s.fn fid).recordBad off kind write ∧ (∀ k, k ≠ fid → t.fn k = s.fn k) ∧
      t = { s with fns := t.fns, flt := t.flt } := by
  subst hf
  obtain ⟨x, hx, hflag⟩ := Block.badAccess_muted hq.1 hn hm off kind write
  exact ⟨_, runR_idle (badAccessReaction_idle fid) (h.trans hx) hq, hflag,
    Block.fn_setFn_self _ _ _, fun k hk => Block.fn_setFn_ne _ _ _ hk, rfl⟩

/-- The outcome of a read that is aborted and recorded (R224), in AER too (R202, log 153). -/
theorem runR_badAccess_abortRead {f : Block → Block} {off kind : Nat} {who : Accessor}
    (h : f s.toBlock = (s.badAccess fid off kind false).abortRead who fid off) :
    ∃ t : State, runR f s = .next t ∧ t.out = s.out ++ [.abort who off] ∧
      flagged (blkHl hl) 1 noUnit s.toBlock t.toBlock ∧
      t.fn fid = { (s.fn fid).recordBad off kind false with
        aer := { (s.fn fid).aer with uncStatus := (s.fn fid).aer.uncStatus ||| (1#32 <<< 15) } } ∧
      (∀ k, k ≠ fid → t.fn k = s.fn k) ∧ t = { s with fns := t.fns, flt := t.flt, out := t.out } := by
  subst hf
  obtain ⟨x, hx, hflag⟩ := Block.badAccess_muted hq.1 hn hm off kind false
  have aborted : f s.toBlock =
      { ((s.modFn fid fun f => f.recordBad off kind false).setFlt (blkHl (fidLink fid)) x).abortRead
          who fid off with reacts := [badAccessReaction fid] } := by
    rw [h, hx]; rfl
  refine ⟨_, runR_idle (badAccessReaction_idle fid) aborted hq, rfl, hflag, ?_, fun k hk => ?_, rfl⟩
  · rw [Block.fn_abortRead_self, Block.fn_setFlt, Block.modFn_eq, Block.fn_setFn_self]
    rfl
  · rw [Block.fn_abortRead_ne _ _ _ hk, Block.fn_setFlt, Block.modFn_eq, Block.fn_setFn_ne _ _ _ hk]

end

end Sys2Proof.Machine
end

section
/-! ## Register access -/

open Sys2Proof Sys2Proof.Machine

/-- Settles O33: each access finds its register, and what it then does to the block is settled within
the step. That AER's bit 15 records the aborted read is the model's reading (log 153). -/
theorem registerAccess : Obligations.RegisterAccess := by
  unfold Obligations.RegisterAccess
  refine ⟨?argument, ?evtQueue, ?reservedWrite, ?time, ?lowerHalf, ?upperHalf, ?reservedRead,
    ?deviceId, ?powerState⟩
  case argument =>
    intro s hl f k v live quiet up
    have whole : v.toNat % 256 ^ 8 = v.toNat := Nat.mod_eq_of_lt v.isLt
    rw [exec_registerWrite_fn, whole]
    refine runR_setFn quiet ((Block.hostStore_wide live up (Block.find_arg _ _ k) _).trans ?_)
    rw [Block.wideWrite_arg, BitVec.ofNat_toNat, BitVec.setWidth_eq, Block.modFn_eq]
  case evtQueue =>
    intro s hl f v live quiet up small
    have whole : v.toNat % 256 ^ 4 = v.toNat := Nat.mod_eq_of_lt (by omega)
    rw [exec_registerWrite_fn, whole]
    refine runR_setFn quiet ((Block.hostStore_word live up (Block.find_evtQueue _ _) _).trans ?_)
    rw [Block.wordWrite_evtQueue _ _ small, Block.modFn_eq]
  case reservedWrite =>
    intro s hl f v live quiet up muted
    rw [exec_registerWrite_fn]
    obtain ⟨t, next, flag, recorded, others, frame⟩ :=
      runR_badAccess quiet (fidLink_fidOf hl f) (Block.live_iff.mp live).2 muted
        (f := fun b => b.hostStore (fidOf hl f) 0x0C 4 (v.toNat % 256 ^ 4))
        (Block.hostStore_bad live up (Block.find_reserved _ _) _)
    exact ⟨t, next, flag, by rw [recorded]; rfl, others, frame⟩
  case time =>
    intro s hl f running quiet up
    rw [exec_reservedRead_fn, ← Block.wideRead_time s.toBlock (fidOf hl f)]
    exact runR_emit quiet (Block.hostRead_wide running up _ (Block.find_time _ _))
  case lowerHalf =>
    intro s hl f running quiet up
    rw [exec_lowerHalfRead_time]
    obtain ⟨t, next, out, fn, others, frame⟩ :=
      runR_setFn_emit quiet (f := fun b => b.hostRead (.fn hl f) (fidOf hl f) 0x28 4)
        (Block.hostRead_lower running up _ (Block.find_time_lower _ _))
    refine ⟨t, next, ?_, ?_, ?_, others, frame⟩
    · rw [out, Block.wideRead_time, Nat.mod_mod_of_dvd _ (by decide)]
    · rw [fn, Tbl.get_set_self, Block.wideRead_time]
    · rw [fn]
  case upperHalf =>
    intro s hl f w running quiet up latched
    rw [exec_reservedRead_fn]
    obtain ⟨t, next, out, fn, others, frame⟩ :=
      runR_setFn_emit quiet (f := fun b => b.hostRead (.fn hl f) (fidOf hl f) 0x2C 4)
        (Block.hostRead_latched running up _ (Block.find_time_upper _ _) latched)
    exact ⟨t, next, out, by rw [fn, Tbl.get_set_self], others, frame⟩
  case reservedRead =>
    intro s hl f live quiet up muted
    rw [exec_reservedRead_fn]
    have ⟨running, calm⟩ := Block.live_iff.mp live
    obtain ⟨t, next, out, flag, recorded, rest⟩ :=
      runR_badAccess_abortRead quiet (fidLink_fidOf hl f) calm muted
        (f := fun b => b.hostRead (.fn hl f) (fidOf hl f) 0x0C 4)
        (Block.hostRead_bad running up _ (Block.find_reserved _ _))
    exact ⟨t, next, out, flag, by rw [recorded]; rfl, rest⟩
  case deviceId =>
    intro s hl f size running quiet there
    rw [exec_reservedRead_cfg, ← Block.cfgWord_deviceId s.toBlock hl f]
    exact runR_emit quiet (Block.cfgRead_there running there _ _)
  case powerState =>
    intro s hl f size running quiet there
    rw [exec_registerWrite_cfg]
    exact runR_setFn quiet (Block.cfgStore_d3hot running there _)
end

section
/-! ## Outcomes and updates that every command shares -/

namespace Sys2Proof.Machine

/-- The outcome of a command that leaves a quiet block: nothing follows within the step. -/
theorem runR_settled {f : Block → Block} {s : State} {b : Block} (h : f s.toBlock = b) (quiet : b.quiet) :
    runR f s = .next { s with toBlock := b } := by
  rw [runR_quiet f s (h ▸ quiet), h]

theorem Block.count_calm {b : Block} (h : b.quench = false) (c n : Nat) :
    b.count c n = { b with counters := Tbl.set 0 b.counters c (min (b.counter c + n) counterMax) } := by
  simp [Block.count, h]

theorem nth_set_self (d : α) (l : List α) {i : Nat} (v : α) (h : i < l.length) :
    nth d (l.set i v) i = v := by
  simp [nth, h]

theorem nth_set_ne (d : α) (l : List α) {i j : Nat} (v : α) (h : j ≠ i) :
    nth d (l.set i v) j = nth d l j := by
  simp [nth, List.getElem?_set_ne h.symm]

end Sys2Proof.Machine
end

section
/-! ## Little-endian fields of byte strings -/

namespace Sys2Proof.Machine

/-- Bit `i` of a little-endian number is bit `i % 8` of its byte `i / 8`. -/
theorem leNat_testBit (bs : Bytes) (i : Nat) :
    (leNat bs).testBit i = (nth 0 bs (i / 8)).getLsbD (i % 8) := by
  induction bs generalizing i with
  | nil => simp [leNat, nth]
  | cons b bs ih =>
    have split_low : leNat (b :: bs) = 2 ^ 8 * leNat bs + b.toNat := by
      simp only [leNat]; omega
    rw [split_low, Nat.testBit_two_pow_mul_add _ b.isLt]
    split
    · next low =>
      rw [Nat.div_eq_of_lt low, Nat.mod_eq_of_lt low, BitVec.testBit_toNat]
      rfl
    · next high =>
      obtain ⟨j, rfl⟩ := Nat.exists_eq_add_of_le' (Nat.le_of_not_lt high)
      rw [Nat.add_sub_cancel, ih, Nat.add_div_right _ (by decide), Nat.add_mod_right]
      rfl

@[simp] theorem leNat_toLe (k n : Nat) : leNat (toLe k n) = n % 256 ^ k := by
  induction k generalizing n with
  | zero => simp [toLe, leNat, Nat.mod_one]
  | succ k ih =>
    calc leNat (toLe (k + 1) n)
        = n % 256 + 256 * (n / 256 % 256 ^ k) := by rw [toLe, leNat, ih, BitVec.toNat_ofNat]
      _ = n % 256 ^ (k + 1) := by rw [Nat.pow_succ', ← Nat.mod_mul]

@[simp] theorem toLe_length (k n : Nat) : (toLe k n).length = k := by
  induction k generalizing n with
  | zero => rfl
  | succ k ih => simp [toLe, ih]

/-- The field that stands first is read off the front. -/
theorem fld_toLe_append {k n : Nat} (h : n < 256 ^ k) (rest : Bytes) :
    fld (toLe k n ++ rest) 0 k = n := by
  simp [fld, Nat.mod_eq_of_lt h]

/-- A field that nothing follows. -/
theorem fld_toLe {k n : Nat} (h : n < 256 ^ k) : fld (toLe k n) 0 k = n := by
  simpa using fld_toLe_append h []

/-- A field behind the first one is a field of what follows it. -/
theorem fld_append_skip (k n off len : Nat) (rest : Bytes) (h : k ≤ off) :
    fld (toLe k n ++ rest) off len = fld rest (off - k) len := by
  simp [fld, List.drop_append, List.drop_eq_nil_of_le, h]

theorem slice_append (a rest : Bytes) : slice (a ++ rest) 0 a.length = a := by
  simp [slice, zeros]

theorem slice_zero_of_le {bs : Bytes} {n : Nat} (h : n ≤ bs.length) : slice bs 0 n = bs.take n := by
  simp [slice, zeros, h]

end Sys2Proof.Machine
end

section
/-! ## The route field and its control word (R35, R36) -/

namespace Sys2Proof.Machine

/-- Adding up the powers of two that `f` picks sets just these bits. -/
theorem foldl_pow_testBit (f : Nat → Bool) (n : Nat) :
    (List.range n).foldl (fun m j => if f j then m + 2 ^ j else m) 0 < 2 ^ n ∧
    ∀ i, ((List.range n).foldl (fun m j => if f j then m + 2 ^ j else m) 0).testBit i =
      (decide (i < n) && f i) := by
  induction n with
  | zero => simp
  | succ n ih =>
    rw [List.range_succ, List.foldl_append, List.foldl_cons, List.foldl_nil]
    generalize (List.range n).foldl (fun m j => if f j then m + 2 ^ j else m) 0 = m at ih ⊢
    obtain ⟨small, spells⟩ := ih
    refine ⟨by split <;> omega, fun i => ?_⟩
    rcases Nat.lt_trichotomy i n with below | rfl | above
    · have old : (if f n then m + 2 ^ n else m).testBit i = m.testBit i := by
        split
        · rw [Nat.add_comm, Nat.testBit_two_pow_add_gt below]
        · rfl
      simp [old, spells, below, Nat.lt_succ_of_lt below]
    · cases hf : f i <;> simp [hf, Nat.add_comm m, Nat.testBit_two_pow_add_eq, spells]
    · have none_above : (if f n then m + 2 ^ n else m) < 2 ^ i :=
        Nat.lt_of_lt_of_le (by split <;> omega : _ < 2 ^ (n + 1)) (Nat.pow_le_pow_right (by decide) above)
      simp [Nat.testBit_lt_two_pow none_above, Nat.not_lt_of_le above]

/-- Bit `i` of the gathered control word is the `CW` bit of hop byte `i`. -/
theorem gatherCw_getLsbD (hops : List Byte) {i : Nat} (h : i < 32) :
    (gatherCw hops).getLsbD i = (nth 0 hops i).getLsbD 1 := by
  have byte : i / 8 < 4 := by omega
  have place : 8 * (i / 8) + i % 8 = i := Nat.div_add_mod i 8
  rw [gatherCw, BitVec.getLsbD_ofNat, leNat_testBit]
  simp only [h, decide_true, Bool.true_and, nth, List.getD_eq_getElem?_getD, List.getElem?_map,
    List.getElem?_range byte, Option.map_some, Option.getD_some, BitVec.getLsbD_ofNat]
  rw [(foldl_pow_testBit (fun j => ((hops[8 * (i / 8) + j]?).getD 0).getLsbD 1) 8).2, place]
  simp [Nat.mod_lt]

/-! ### One hop byte -/

theorem clear_cw (h : Byte) : (h &&& 0xFD#8).getLsbD 1 = false := by
  revert h; decide

theorem hopWire_cw (cw : BitVec 32) (i : Nat) (h : Byte) :
    (hopWire cw i h).getLsbD 1 = cw.getLsbD i := by
  rw [hopWire, BitVec.getLsbD_or, clear_cw]
  cases cw.getLsbD i <;> rfl

/-- A hop byte whose `CW` bit is clear comes back when the bit is cleared again. -/
theorem hopWire_clear (cw : BitVec 32) (i : Nat) {h : Byte} (clear : h.getLsbD 1 = false) :
    hopWire cw i h &&& 0xFD#8 = h := by
  have kept : ∀ h : Byte, h.getLsbD 1 = false →
      ((h &&& 0xFD#8) ||| 2#8) &&& 0xFD#8 = h ∧ ((h &&& 0xFD#8) ||| 0#8) &&& 0xFD#8 = h := by decide
  unfold hopWire
  split
  · exact (kept h clear).1
  · exact (kept h clear).2

/-- Putting back the `CW` bit that a hop byte had gives that byte. -/
theorem hopWire_of_cleared {cw : BitVec 32} {i : Nat} {h : Byte} (same : cw.getLsbD i = h.getLsbD 1) :
    hopWire cw i (h &&& 0xFD#8) = h := by
  have whole : ∀ h : Byte,
      (h &&& 0xFD#8 &&& 0xFD#8) ||| (if h.getLsbD 1 then 2#8 else 0#8) = h := by decide
  rw [hopWire, same, whole]

/-! ### The route field -/

/-- The route field of a packet on the wire. -/
def Pkt.routeWire (p : Pkt) : Bytes :=
  (List.range 32).map fun i => hopWire p.cw i (nth 0 p.hops i)

@[simp] theorem Pkt.routeWire_length (p : Pkt) : p.routeWire.length = 32 := by simp [Pkt.routeWire]

theorem Pkt.routeWire_nth (p : Pkt) {i : Nat} (h : i < 32) :
    nth 0 p.routeWire i = hopWire p.cw i (nth 0 p.hops i) := by
  simp [nth, Pkt.routeWire, h]

theorem Pkt.encode_eq (p : Pkt) : p.encode = p.routeWire ++ p.rest := rfl

theorem Pkt.decode_append {route : Bytes} (h : route.length = 32) (rest : Bytes) :
    Pkt.decode (route ++ rest) =
      { hops := route.map (· &&& 0xFD#8), cw := gatherCw route, rest := rest } := by
  simp only [Pkt.decode, ← h, slice_append, List.drop_left]

theorem Pkt.wf_iff (p : Pkt) :
    p.wf = true ↔ p.hops.length = 32 ∧ ∀ h ∈ p.hops, h.getLsbD 1 = false := by
  simp [Pkt.wf]

theorem Pkt.gatherCw_routeWire (p : Pkt) : gatherCw p.routeWire = p.cw :=
  BitVec.eq_of_getLsbD_eq fun i h => by
    rw [gatherCw_getLsbD _ h, p.routeWire_nth h, hopWire_cw]

theorem Pkt.clear_routeWire {p : Pkt} (h : p.wf = true) :
    p.routeWire.map (· &&& 0xFD#8) = p.hops := by
  obtain ⟨len, clear⟩ := p.wf_iff.mp h
  refine List.ext_getElem (by simp [len]) fun i _ inside => ?_
  have hop : nth 0 p.hops i = p.hops[i] := by simp [nth, inside]
  rw [List.getElem_map]
  simp only [Pkt.routeWire, List.getElem_map, List.getElem_range, hop]
  exact hopWire_clear _ _ (clear _ (List.getElem_mem inside))

/-- A packet as the block holds it comes back from its bytes. -/
theorem Pkt.decode_encode {p : Pkt} (h : p.wf = true) : Pkt.decode p.encode = p := by
  rw [p.encode_eq, Pkt.decode_append p.routeWire_length, p.gatherCw_routeWire, Pkt.clear_routeWire h]

/-- Spreading the gathered control word over the cleared hop bytes gives the route field again. -/
theorem Pkt.routeWire_cleared {route : Bytes} (h : route.length = 32) (rest : Bytes) :
    Pkt.routeWire { hops := route.map (· &&& 0xFD#8), cw := gatherCw route, rest := rest } = route := by
  refine List.ext_getElem (by simp [h]) fun i _ inside => ?_
  have hop : nth 0 route i = route[i] := by simp [nth, inside]
  have cleared : nth 0 (route.map (· &&& 0xFD#8)) i = route[i] &&& 0xFD#8 := by simp [nth, inside]
  simp only [Pkt.routeWire, List.getElem_map, List.getElem_range, cleared]
  exact hopWire_of_cleared (by rw [gatherCw_getLsbD _ (h ▸ inside), hop])

/-- Bytes that begin with a whole route field are spelt by the packet they decode to. -/
theorem Pkt.encode_decode {bs : Bytes} (h : 32 ≤ bs.length) :
    (Pkt.decode bs).encode = bs ∧ (Pkt.decode bs).wf = true := by
  have len : (bs.take 32).length = 32 := by simp [h]
  have decoded : Pkt.decode bs = _ :=
    (congrArg Pkt.decode (List.take_append_drop 32 bs).symm).trans (Pkt.decode_append len _)
  rw [decoded]
  constructor
  · rw [Pkt.encode_eq, Pkt.routeWire_cleared len, List.take_append_drop]
  · rw [Pkt.wf_iff]
    refine ⟨by simp [h], fun x hx => ?_⟩
    obtain ⟨y, -, rfl⟩ := List.mem_map.mp hx
    exact clear_cw y

end Sys2Proof.Machine
end

section
/-! ## Capability records (R81) -/

namespace Sys2Proof.Machine

/-- The flags of byte 2 of a capability record. -/
def CapRec.flags (r : CapRec) : Nat :=
  b2n r.peerSeen + b2n r.seamlessOk * 2 + b2n r.timeOk * 4 + b2n r.resume * 8

theorem CapRec.flags_lt (r : CapRec) : r.flags < 256 := by
  have one : ∀ b, b2n b ≤ 1 := by decide
  have := one r.peerSeen; have := one r.seamlessOk; have := one r.timeOk; have := one r.resume
  rw [CapRec.flags]; omega

/-- Four flags that share a byte can be told apart. -/
theorem bit_flags (a b c d : Bool) :
    let fl := b2n a + b2n b * 2 + b2n c * 4 + b2n d * 8
    bit fl 0 = a ∧ bit fl 1 = b ∧ bit fl 2 = c ∧ bit fl 3 = d := by
  revert a b c d; decide

theorem bits_low {n msb : Nat} (h : n < 2 ^ (msb + 1)) : bits n msb 0 = n := by
  rw [bits, Nat.pow_zero, Nat.div_one, Nat.sub_zero, Nat.mod_eq_of_lt h]

theorem CapRec.encode_eq (r : CapRec) : r.encode =
    toLe 1 r.verMax ++ (toLe 1 r.verMin ++ (toLe 1 r.flags ++ (toLe 1 r.pvcCount ++
      (toLe 4 r.nodeId ++ (toLe 2 r.machineId ++ (toLe 2 r.partMask ++ (toLe 2 r.replayDepth ++
        (toLe 1 r.hbUnits ++ (toLe 1 r.mode ++ (toLe 2 r.resumeAck.toNat ++
          toLe 1 r.refuse)))))))))) := by
  simp only [CapRec.encode, CapRec.flags, List.append_assoc]

theorem CapRec.decode_encode {r : CapRec} (verMax : r.verMax < 256) (verMin : r.verMin < 256)
    (pvcCount : r.pvcCount < 256) (nodeId : r.nodeId < 2 ^ 18) (machineId : r.machineId < 2 ^ 16)
    (partMask : r.partMask < 2 ^ 16) (replayDepth : r.replayDepth < 2 ^ 16) (hbUnits : r.hbUnits < 256)
    (mode : r.mode < 64) (refuse : r.refuse < 256) : CapRec.decode r.encode = r := by
  obtain ⟨seen, seamless, time, resume⟩ := bit_flags r.peerSeen r.seamlessOk r.timeOk r.resume
  rw [← CapRec.flags] at seen seamless time resume
  have node4 : r.nodeId < 256 ^ 4 := by omega
  have mode1 : r.mode < 256 := by omega
  have flags := r.flags_lt
  have ack : r.resumeAck.toNat < 256 ^ 2 := r.resumeAck.isLt
  simp only [Nat.reducePow] at nodeId machineId partMask replayDepth node4 ack
  simp [CapRec.encode_eq, CapRec.decode, fld_toLe_append, fld_toLe, fld_append_skip, bits_low, *]

end Sys2Proof.Machine
end

section
/-! ## Formats of packets and capability records -/

open Sys2Proof Sys2Proof.Machine

/-- Settles O54: the control word is spread over the hop bytes and gathered again bit by bit, and the
fields of a capability record lie one behind the other. -/
theorem packetRoundTrip : Obligations.PacketRoundTrip :=
  ⟨fun _ => Pkt.decode_encode, fun _ => Pkt.encode_decode, fun _ => CapRec.decode_encode⟩
end

section
/-! ## Taking a report of an unroutable packet (R45, R112) -/

namespace Sys2Proof.Machine

/-- From `s` to `t` connection `c` becomes `x`, and nothing else changes. -/
def ctxBecomes (c : Nat) (x : Ctx) (s t : Block) : Prop :=
  t.ctx c = x ∧ (∀ d, d ≠ c → t.ctx d = s.ctx d) ∧ t = { s with ctxs := t.ctxs }

theorem Block.setCtx_becomes (b : Block) (c : Nat) (x : Ctx) : ctxBecomes c x b (b.setCtx c x) :=
  ⟨Block.ctx_setCtx_self _ _ _, fun _ h => Block.ctx_setCtx_ne _ _ _ h, rfl⟩

theorem Block.modCtx_becomes (b : Block) (c : Nat) (f : Ctx → Ctx) :
    ctxBecomes c (f (b.ctx c)) b (b.modCtx c f) := b.setCtx_becomes c _

theorem ctxBecomes.trans {c : Nat} {x y : Ctx} {r s t : Block} (h : ctxBecomes c x r s)
    (h' : ctxBecomes c y s t) : ctxBecomes c y r t := by
  obtain ⟨-, others, only⟩ := h
  obtain ⟨is_y, others', only'⟩ := h'
  refine ⟨is_y, fun d hd => (others' d hd).trans (others d hd), ?_⟩
  rw [only', only]

theorem Block.onArrival_taken {b : Block} {i format kind : Nat} {a : Arrival} (live : b.live = true)
    (there : b.delivery[i]? = some a) (hf : a.pkt.format = format) (hk : a.pkt.kind = kind)
    (f : Block → Arrival → Block) :
    b.onArrival i format kind f = f { b with delivery := b.delivery.eraseIdx i } a := by
  simp [Block.onArrival, Block.takeArrival, live, there, hf, hk]

theorem Block.touchCtx_cached {b : Block} {c : Nat} (h : (b.ctx c).spilled = false) :
    b.touchCtx c = (true, b.setCtx c { b.ctx c with used := b.now }) := by
  simp [Block.touchCtx, h]

/-- Once the tries are used up nothing is sent again. -/
theorem Block.tryAgain_exhausted {b : Block} {c : Nat} (h : (b.ctx c).retryLimit ≤ (b.ctx c).tries)
    (again : Block → Block) : b.tryAgain c again = b := by
  simp [Block.tryAgain, Nat.not_lt_of_le h]

/-- The connection with the path that report `p` names held off until time `u` (R112). -/
def Ctx.holdOff (x : Ctx) (p : Pkt) (u : Nat) : Ctx :=
  { x with holdUntil := x.holdUntil.set (p.at_ 48 1 % 4) (some u) }

/-- The connection without the note of the path that `psn` had before its resending (log 140). -/
def Ctx.forget (x : Ctx) (psn : BitVec 32) : Ctx :=
  { x with unans := x.unans.map fun v => if v.psn = psn then { v with before := none } else v }

theorem Ctx.forget_psns (x : Ctx) (psn : BitVec 32) :
    (x.forget psn).unans.map (·.psn) = x.unans.map (·.psn) := by
  simp only [Ctx.forget, List.map_map]
  refine List.map_congr_left fun v _ => ?_
  simp only [Function.comp]
  split <;> rfl

/-- On a connection without tries left a report holds its path off, and at most a note of an earlier path
is dropped. -/
theorem Block.takeReport_exhausted {b : Block} {c : Nat}
    (h : (b.ctx c).retryLimit ≤ (b.ctx c).tries) (p : Pkt) :
    let held := b.modCtx c (·.holdOff p (b.now + b.obj 0x4010 5 * 1000))
    b.takeReport c p = held ∨ ∃ psn, b.takeReport c p = held.modCtx c (·.forget psn) := by
  rw [Block.takeReport]
  dsimp only
  split
  · exact .inl rfl
  · next u _ =>
    generalize (u.before == some (p.at_ 48 1 % 4) || (u.kind == 0x43 && u.before.isSome)) = past
    cases past with
    | true => exact .inr ⟨u.psn, rfl⟩
    | false =>
      simp only [Bool.false_or, Bool.false_eq_true, if_false]
      rw [Block.tryAgain_exhausted, ite_self]
      · exact .inl rfl
      · rw [Block.modCtx_eq, Block.ctx_setCtx_self]
        exact h

/-- What a report leaves of a connection without tries left. -/
theorem Block.takeReport_becomes {b : Block} {c : Nat}
    (h : (b.ctx c).retryLimit ≤ (b.ctx c).tries) (p : Pkt) :
    ∃ l : List Unans, l.map (·.psn) = (b.ctx c).unans.map (·.psn) ∧
      ctxBecomes c { (b.ctx c).holdOff p (b.now + b.obj 0x4010 5 * 1000) with unans := l } b
        (b.takeReport c p) := by
  have held := b.modCtx_becomes c (·.holdOff p (b.now + b.obj 0x4010 5 * 1000))
  obtain ⟨is_held, -, -⟩ := id held
  rcases Block.takeReport_exhausted h p with eq | ⟨psn, eq⟩ <;> rw [eq]
  · exact ⟨(b.ctx c).unans, rfl, held⟩
  · refine ⟨((b.ctx c).forget psn).unans, Ctx.forget_psns _ _, held.trans ?_⟩
    have forgotten := Block.modCtx_becomes
      (b.modCtx c (·.holdOff p (b.now + b.obj 0x4010 5 * 1000))) c (·.forget psn)
    rw [is_held] at forgotten
    exact forgotten

/-- What becomes of a report: its connection takes it, or it waits for the connection's fill (R131), or it
names none and is counted (log 135). -/
def Block.meetReport (b : Block) (a : Arrival) : Block :=
  match b.reportedCtx a.pkt with
  | some c =>
    match b.touchCtx c with
    | (true, b) => b.takeReport c a.pkt
    | (false, b) => b.stash a (.ctx c)
  | none => b.count 520 1

/-- Connection `x` after report `p`, taken at `now`: its path is held off for `wait`, and `l` is unanswered. -/
def Ctx.reported (x : Ctx) (p : Pkt) (now wait : Nat) (l : List Unans) : Ctx :=
  { x.holdOff p (now + wait) with used := now, unans := l }

/-- What a report leaves of the connection that it names, where no try is left. -/
theorem Block.meetReport_becomes {b : Block} {a : Arrival} {c : Nat}
    (names : b.reportedCtx a.pkt = some c) (cached : (b.ctx c).spilled = false)
    (spent : (b.ctx c).retryLimit ≤ (b.ctx c).tries) :
    ∃ l : List Unans, l.map (·.psn) = (b.ctx c).unans.map (·.psn) ∧
      ctxBecomes c ((b.ctx c).reported a.pkt b.now (b.obj 0x4010 5 * 1000) l) b (b.meetReport a) := by
  have met : b.meetReport a = (b.setCtx c { b.ctx c with used := b.now }).takeReport c a.pkt := by
    simp only [Block.meetReport, names, Block.touchCtx_cached cached]
  have touched := b.setCtx_becomes c { b.ctx c with used := b.now }
  generalize b.setCtx c { b.ctx c with used := b.now } = b1 at met touched
  obtain ⟨seen, -, frame⟩ := id touched
  have hold : b1.now + b1.obj 0x4010 5 * 1000 = b.now + b.obj 0x4010 5 * 1000 := by rw [frame]; rfl
  obtain ⟨l, psns, taken⟩ := Block.takeReport_becomes (by rw [seen]; exact spent) a.pkt
  rw [seen] at psns taken
  rw [hold, ← met] at taken
  exact ⟨l, psns, touched.trans taken⟩

theorem Block.meetReport_stray {b : Block} {a : Arrival} (calm : b.quench = false)
    (names : b.reportedCtx a.pkt = none) : b.meetReport a =
      { b with counters := Tbl.set 0 b.counters 520 (min (b.counter 520 + 1) counterMax) } := by
  simp only [Block.meetReport, names, Block.count_calm calm]

theorem exec_unroutableReport (i : Nat) (s : State) : exec (.unroutableReport i) s =
    runR (fun b => b.onArrival i 0 4 Block.meetReport) s := rfl

/-- The outcome where the block that the report leaves is quiet. -/
theorem exec_unroutableReport_taken {s : State} {i : Nat} {a : Arrival} (live : s.live = true)
    (there : s.delivery[i]? = some a) (hf : a.pkt.format = 0) (hk : a.pkt.kind = 4) {b : Block}
    (met : Block.meetReport { s.toBlock with delivery := s.delivery.eraseIdx i } a = b) (quiet : b.quiet) :
    exec (.unroutableReport i) s = .next { s with toBlock := b } :=
  (exec_unroutableReport i s).trans
    (runR_settled ((Block.onArrival_taken live there hf hk _).trans met) quiet)

end Sys2Proof.Machine
end

section
/-! ## Unroutable reports -/

open Sys2Proof Sys2Proof.Machine

/-- Settles O15: a report that names a connection without tries left changes that connection alone. -/
theorem unroutableTaken : Obligations.UnroutableTaken := by
  unfold Obligations.UnroutableTaken
  refine ⟨?named, ?stray⟩
  case named =>
    intro s i a c live quiet there format kind names cached spent four
    obtain ⟨l, psns, becomes⟩ := Block.meetReport_becomes (a := a)
      (b := { s.toBlock with delivery := s.delivery.eraseIdx i }) names cached spent
    generalize met : Block.meetReport _ a = t at becomes
    obtain ⟨held, others, frame⟩ := becomes
    have path : a.pkt.at_ 48 1 % 4 < (s.ctx c).holdUntil.length := by omega
    refine ⟨{ s with toBlock := t },
      exec_unroutableReport_taken live there format kind met (by rw [frame]; exact quiet), ?_⟩
    simp only [held]
    exact ⟨nth_set_self _ _ _ path, rfl, psns, fun j hj => nth_set_ne _ _ _ hj, others,
      congrArg (fun x : Block => { s with toBlock := x }) frame⟩
  case stray =>
    intro s i a live quiet there format kind names
    obtain ⟨-, calm⟩ := Block.live_iff.mp live
    have met := Block.meetReport_stray (b := { s.toBlock with delivery := s.delivery.eraseIdx i })
      calm names
    exact ⟨_, exec_unroutableReport_taken live there format kind met quiet, Tbl.get_set_self _ _ _ _, rfl⟩
end

section
/-! ## What a change of the input buffers leaves alone (R73 to R76, R512)

The credits of a port stand in its record, so nothing but `ports` changes. -/

namespace Sys2Proof.Machine

/-- From `s` to `t` nothing but port records changes. -/
def portsOnly (s t : Block) : Prop := ∃ ports, t = { s with ports := ports }

theorem portsOnly.refl (b : Block) : portsOnly b b := ⟨b.ports, rfl⟩

theorem portsOnly.trans {r s t : Block} (h : portsOnly r s) (h' : portsOnly s t) : portsOnly r t := by
  obtain ⟨_, rfl⟩ := h
  obtain ⟨_, rfl⟩ := h'
  exact ⟨_, rfl⟩

theorem Block.setPort_portsOnly (b : Block) (p : Nat) (x : Port) : portsOnly b (b.setPort p x) :=
  ⟨_, rfl⟩

theorem Block.poolRaise_portsOnly (b : Block) (p v was : Nat) : portsOnly b (b.poolRaise p v was) :=
  b.setPort_portsOnly p _

theorem portsOnly.foldl {f : Block → Nat → Block} (h : ∀ b v, portsOnly b (f b v)) (l : List Nat)
    (b : Block) : portsOnly b (l.foldl f b) := by
  induction l generalizing b with
  | nil => exact .refl b
  | cons v l ih => exact (h b v).trans (ih _)

theorem Block.poolServe_portsOnly (b : Block) (p : Nat) : portsOnly b (b.poolServe p) := by
  refine portsOnly.foldl (fun b v => ?_) _ b
  split
  · exact b.poolRaise_portsOnly p v _
  · exact b.setPort_portsOnly p _

theorem Block.creditCheck_portsOnly (b : Block) (p v was : Nat) :
    portsOnly b (b.creditCheck p v was) := by
  unfold Block.creditCheck
  dsimp only
  split
  · exact b.setPort_portsOnly p _
  · split
    · exact b.poolRaise_portsOnly p v was
    · split
      · exact (b.setPort_portsOnly p _).trans (Block.poolServe_portsOnly _ p)
      · exact b.setPort_portsOnly p _

theorem Block.freeGrains_portsOnly (b : Block) (p v n : Nat) : portsOnly b (b.freeGrains p v n) :=
  (b.setPort_portsOnly p _).trans (Block.creditCheck_portsOnly _ p v _)

theorem Block.leave_portsOnly (b : Block) (src : Src) (n : Nat) : portsOnly b (b.leave src n) := by
  unfold Block.leave
  split
  · exact .refl b
  · split
    · exact .refl b
    · exact b.freeGrains_portsOnly _ _ n

end Sys2Proof.Machine
end

section
/-! ## Taking a packet off its input, and queueing it for its next hop (R38, R99, R104) -/

namespace Sys2Proof.Machine

/-- The block with the head of an input's VC gone. -/
def Block.dropHead (b : Block) (row vc : Nat) : Block :=
  { b with
    injQ := if row = 16 then Tbl.set [] b.injQ vc ((queueOf b.injQ vc).drop 1) else b.injQ
    rxQ := if row = 16 then b.rxQ else Tbl.set [] b.rxQ (pv row vc) ((queueOf b.rxQ (pv row vc)).drop 1) }

theorem Block.dropHead_injQ (b : Block) {row : Nat} (vc : Nat) (h : row = 16) :
    queueOf (b.dropHead row vc).injQ vc = (queueOf b.injQ vc).drop 1 := by
  simp [queueOf, Block.dropHead, h]

theorem Block.dropHead_rxQ (b : Block) {row : Nat} (vc : Nat) (h : row ≠ 16) :
    queueOf (b.dropHead row vc).rxQ (pv row vc) = (queueOf b.rxQ (pv row vc)).drop 1 := by
  simp [queueOf, Block.dropHead, h]

/-- Of the port records in `b` those in `ports` differ in `carry` alone. -/
def carryOnly (b : Block) (ports : Tbl Port) : Prop :=
  ∀ q, ∃ k, Tbl.get {} ports q = { b.port q with carry := k }

/-- Taking the head numbers its place, or uses up one that counts no credit (R89). -/
theorem Block.takeHead_eq (b : Block) (row vc : Nat) : ∃ (src : Src) (ports : Tbl Port) (next : Nat),
    b.takeHead row vc = (src, { b.dropHead row vc with ports := ports, nextPlace := next }) ∧
      src.row = row ∧ carryOnly b ports := by
  unfold Block.takeHead Block.takePlace Block.dropHead
  by_cases injected : row = 16
  · subst injected
    exact ⟨⟨16, none⟩, b.ports, b.nextPlace, by simp, rfl, fun q => ⟨_, rfl⟩⟩
  · simp only [injected, if_false]
    split
    · refine ⟨⟨row, none⟩, _, b.nextPlace, rfl, rfl, fun q => ?_⟩
      by_cases hq : q = row
      · subst hq
        exact ⟨_, Tbl.get_set_self _ _ _ _⟩
      · exact ⟨_, Tbl.get_set_ne _ _ _ _ hq⟩
    · exact ⟨_, b.ports, _, rfl, rfl, fun q => ⟨_, rfl⟩⟩

theorem Block.throttle_eq (b : Block) (p v : Nat) :
    ∃ th ct, b.throttle p v = { b with throttled := th, counters := ct } := by
  unfold Block.throttle
  split
  · exact ⟨_, _, rfl⟩
  · dsimp only
    split
    · rcases Block.count_eq { b with throttled := Tbl.set false b.throttled (pv p v) true } 516 1 with
        eq | ⟨ct, eq⟩ <;> rw [eq]
      · exact ⟨_, _, rfl⟩
      · exact ⟨_, _, rfl⟩
    · split
      · exact ⟨_, _, rfl⟩
      · exact ⟨_, _, rfl⟩

theorem bits_ofNat_low (x : Nat) : bits (BitVec.ofNat 32 x).toNat 5 0 = x % 64 := by
  rw [BitVec.toNat_ofNat, bits]
  omega

theorem mkCw_ptr (ptr last heat mode tree : Nat) :
    bits (mkCw ptr last heat mode tree).toNat 5 0 = ptr % 64 := by
  rw [mkCw, bits_ofNat_low]
  omega

theorem Pkt.ptr_setPtrHeat (p : Pkt) {n : Nat} (h : n < 64) (heat : Nat) :
    (p.setPtrHeat n heat).ptr = n :=
  (mkCw_ptr n _ _ _ _).trans (Nat.mod_eq_of_lt h)

/-- Only the control word is rewritten. It is hidden behind a name here, so that the kernel compares the
packets without evaluating it. -/
theorem Pkt.setPtrHeat_keeps (p : Pkt) (n heat : Nat) :
    (p.setPtrHeat n heat).hops = p.hops ∧ (p.setPtrHeat n heat).rest = p.rest := by
  have word : ∃ cw, p.setPtrHeat n heat = { p with cw := cw } := ⟨_, rfl⟩
  obtain ⟨cw, eq⟩ := word
  rw [eq]
  exact ⟨rfl, rfl⟩

theorem Pkt.ptr_lt (p : Pkt) : p.ptr < 64 := Nat.mod_lt _ (by decide)

theorem Pkt.last_lt (p : Pkt) : p.last < 32 := Nat.mod_lt _ (by decide)

/-- The packet with its heat brought up to the fill of the queue that it joins, where it is a general one
(R99). -/
def Pkt.stamp (p : Pkt) (fill : Nat) : Pkt :=
  if p.priv then p else p.setPtrHeat p.ptr (max p.heat fill)

theorem Pkt.stamp_keeps (p : Pkt) (fill : Nat) :
    (p.stamp fill).hops = p.hops ∧ (p.stamp fill).rest = p.rest ∧ (p.stamp fill).ptr = p.ptr := by
  unfold Pkt.stamp
  split
  · exact ⟨rfl, rfl, rfl⟩
  · obtain ⟨hops, rest⟩ := p.setPtrHeat_keeps p.ptr (max p.heat fill)
    exact ⟨hops, rest, p.ptr_setPtrHeat p.ptr_lt _⟩

/-- A packet that joins an output queue goes behind those that wait there. -/
theorem Block.joinOut_eq (b : Block) (q v : Nat) (src : Src) (p : Pkt) :
    ∃ (th : Tbl Bool) (ct : Tbl Nat), b.joinOut q v src p =
      { b with outQ := Tbl.set [] b.outQ (pv q v)
                 (queueOf b.outQ (pv q v) ++ [⟨p.stamp (b.fill q v), src⟩])
               throttled := th, counters := ct } :=
  Block.throttle_eq _ q v

end Sys2Proof.Machine
end

section
/-! ## Forwarding a unicast packet (R38, R39, R105) -/

namespace Sys2Proof.Machine

/-- A packet that has a hop left takes the hop at `PTR`. -/
theorem Block.hopOf_out {b : Block} {row vc q v : Nat} {p : Pkt} (h : b.hopOf row vc p = .out q v) :
    q = hopPort (p.hop p.ptr) ∧ v = p.vcOn (hopLayer (p.hop p.ptr)) ∧ p.ptr ≤ p.last := by
  unfold Block.hopOf at h
  dsimp only at h
  split at h
  · cases h
  · split at h
    · split at h <;> cases h
    · split at h
      · cases h
      · split at h
        · cases h
        · cases h
          exact ⟨rfl, rfl, by omega⟩

theorem Block.pvcLimit_carryOnly {b c : Block} (h : carryOnly b c.ports) (row : Nat) :
    c.pvcLimit row = b.pvcLimit row := by
  obtain ⟨k, eq⟩ := h row
  simp only [Block.pvcLimit, Block.port, eq]

theorem Block.portUp_carryOnly {b c : Block} (h : carryOnly b c.ports) (q : Nat) :
    c.portUp q = b.portUp q := by
  obtain ⟨k, eq⟩ := h q
  simp only [Block.portUp, Block.port, eq]

/-- A packet that takes its hop advances `PTR` by one, keeps every byte but the control word, and goes behind
those that wait at the queue of the hop. -/
theorem Block.takeHop_eq {b : Block} {row vc q v : Nat} {p : Pkt} (hop : b.hopOf row vc p = .out q v)
    (c : Block) (src : Src) : ∃ (k : QPkt) (th : Tbl Bool) (ct : Tbl Nat), c.takeHop src p =
      { c with outQ := Tbl.set [] c.outQ (pv q v) (queueOf c.outQ (pv q v) ++ [k])
               throttled := th, counters := ct } ∧
      k.pkt.hops = p.hops ∧ k.pkt.rest = p.rest ∧ k.pkt.ptr = p.ptr + 1 ∧ k.src = src := by
  obtain ⟨hq, hv, on_route⟩ := Block.hopOf_out hop
  have advanced : (p.setPtrHeat (p.ptr + 1) p.heat).ptr = p.ptr + 1 :=
    p.ptr_setPtrHeat (by have := p.last_lt; omega) _
  obtain ⟨hops, rest⟩ := p.setPtrHeat_keeps (p.ptr + 1) p.heat
  obtain ⟨hops', rest', ptr'⟩ := (p.setPtrHeat (p.ptr + 1) p.heat).stamp_keeps (c.fill q v)
  obtain ⟨th, ct, joined⟩ := c.joinOut_eq q v src (p.setPtrHeat (p.ptr + 1) p.heat)
  generalize Pkt.stamp _ _ = k at joined hops' rest' ptr'
  rw [Block.takeHop, ← hq, ← hv]
  exact ⟨⟨k, src⟩, th, ct, joined, hops'.trans hops, rest'.trans rest, ptr'.trans advanced, rfl⟩

theorem Block.forwardPkt_unicast {b : Block} {src : Src} {p : Pkt}
    (sound : p.malformed (b.pvcLimit src.row) = false) (unicast : p.mode = 0) (vc : Nat)
    (go : List (Nat × Nat)) : b.forwardPkt src vc p go = b.forwardUni src vc p := by
  simp [Block.forwardPkt, sound, unicast]

theorem Block.forwardUni_out {b : Block} {src : Src} {vc q v : Nat} {p : Pkt}
    (hop : b.hopOf src.row vc p = .out q v) (general : p.priv = false) (up : b.portUp q = true) :
    b.forwardUni src vc p = b.takeHop src p := by
  simp [Block.forwardUni, hop, general, up]

theorem Block.forwardUni_deliver {b : Block} {src : Src} {vc : Nat} {p : Pkt}
    (hop : b.hopOf src.row vc p = .deliver) :
    b.forwardUni src vc p = b.deliver src.row vc p 0 := by
  simp only [Block.forwardUni, hop]

/-- The block from which the head of VC `vc` of input `row` has been taken, and which no longer counts it
among the packets that wait for a record (R281). -/
def Block.afterTake (b : Block) (row vc : Nat) (ports : Tbl Port) (next : Nat) : Block :=
  { (({ b with gatherHeld := b.gatherHeld.filter fun k => !(k == pv row vc) } : Block).dropHead row vc) with
    ports := ports, nextPlace := next }

theorem Block.hopOf_afterTake (b : Block) (row vc : Nat) (ports : Tbl Port) (next : Nat) (p : Pkt) :
    (b.afterTake row vc ports next).hopOf row vc p = b.hopOf row vc p := rfl

section
variable {b : Block} {row vc : Nat} {p : Pkt} (not_copying : b.copyHead row vc = none)
  (not_made : row = 16 → queueOf b.madeQ vc = []) (head : b.headOf row vc = some p)
  (sound : p.malformed (b.pvcLimit row) = false) (unicast : p.mode = 0)

include not_made in
theorem Block.madeHead_none : b.madeHead row vc = none := by
  unfold Block.madeHead
  split
  · next h => rw [not_made h]; rfl
  · rfl

include not_copying not_made head

theorem Block.headOuts_arrived : b.headOuts row vc = b.outsOf row vc p := by
  simp only [Block.headOuts, not_copying, Block.madeHead_none not_made, head]

include unicast sound

/-- A unicast packet needs no gather record (R281): once its turn has come it is taken off its input, takes
its hop or ends here, and the queues that it joined have been served. -/
theorem Block.forwardHead_unicast (turn : b.mayForward row vc = true) :
    ∃ (src : Src) (ports : Tbl Port) (next : Nat), src.row = row ∧ carryOnly b ports ∧
      b.forwardHead row vc = (((b.afterTake row vc ports next).forwardUni src vc p).leave src p.size).served
        row (b.turns row vc) := by
  have no_record : b.gathersHere row p = false := by simp [Block.gathersHere, unicast]
  obtain ⟨src, ports, next, taken, from_row, carries⟩ := Block.takeHead_eq
    { b with gatherHeld := b.gatherHeld.filter fun k => !(k == pv row vc) } row vc
  refine ⟨src, ports, next, from_row, carries, ?_⟩
  have handled := Block.forwardPkt_unicast (b := b.afterTake row vc ports next) (src := src) (p := p)
    (by rw [from_row, Block.pvcLimit_carryOnly carries]; exact sound) unicast vc (b.turns row vc)
  rw [← handled, Block.afterTake]
  simp only [Block.forwardHead, not_copying, Block.madeHead_none not_made, head, turn, no_record, taken,
    Bool.not_true, Bool.false_and, Bool.false_eq_true, if_false]

/-- What forwarding does to a packet that takes its next hop: it leaves its input for the output queue of
the hop, whose round robin goes on from here (R105). -/
theorem Block.forwardHead_out {q v : Nat} (general : p.priv = false)
    (hop : b.hopOf row vc p = .out q v) (turn : b.inTurn row q v = true) (up : b.portUp q = true) :
    ∃ (k : QPkt) (th : Tbl Bool) (ct : Tbl Nat) (ports : Tbl Port) (next : Nat),
      b.forwardHead row vc = { b.afterTake row vc ports next with
        outQ := Tbl.set [] b.outQ (pv q v) (queueOf b.outQ (pv q v) ++ [k])
        throttled := th, counters := ct
        rrIn := Tbl.set 16 b.rrIn (pv q v) row } ∧
      k.pkt.hops = p.hops ∧ k.pkt.rest = p.rest ∧ k.pkt.ptr = p.ptr + 1 ∧ k.src.row = row := by
  have outs : b.headOuts row vc = [(q, v)] := by
    rw [Block.headOuts_arrived not_copying not_made head]
    simp [Block.outsOf, sound, unicast, hop, general, up]
  have turns : b.turns row vc = [(q, v)] := by simp [Block.turns, outs, turn]
  have may : b.mayForward row vc = true := by simp [Block.mayForward, outs, turns]
  obtain ⟨src, ports, next, rfl, carries, forwarded⟩ :=
    Block.forwardHead_unicast not_copying not_made head sound unicast may
  have hop' := (b.hopOf_afterTake src.row vc ports next p).trans hop
  obtain ⟨k, th, ct, joined, hops, rest, ptr, from_src⟩ :=
    Block.takeHop_eq hop (b.afterTake src.row vc ports next) src
  rw [turns, Block.forwardUni_out hop' general ((Block.portUp_carryOnly carries q).trans up), joined]
    at forwarded
  obtain ⟨ports', left⟩ := Block.leave_portsOnly _ src p.size
  rw [left] at forwarded
  exact ⟨k, th, ct, ports', next, forwarded, hops, rest, ptr, congrArg Src.row from_src⟩

/-- What forwarding does to a packet that has arrived: it leaves its input and is delivered (R38, R39). -/
theorem Block.forwardHead_deliver (hop : b.hopOf row vc p = .deliver) :
    ∃ (ports : Tbl Port) (next : Nat),
      b.forwardHead row vc = { b.afterTake row vc ports next with
        delivery := b.delivery ++ [{ pkt := p, row := row, vc := vc }] } := by
  have outs : b.headOuts row vc = [] := by
    rw [Block.headOuts_arrived not_copying not_made head]
    simp [Block.outsOf, sound, unicast, hop]
  have turns : b.turns row vc = [] := by simp [Block.turns, outs]
  have may : b.mayForward row vc = true := by simp [Block.mayForward, outs]
  obtain ⟨src, ports, next, rfl, -, forwarded⟩ :=
    Block.forwardHead_unicast not_copying not_made head sound unicast may
  rw [turns, Block.forwardUni_deliver ((b.hopOf_afterTake src.row vc ports next p).trans hop)] at forwarded
  obtain ⟨ports', left⟩ := Block.leave_portsOnly _ src p.size
  rw [left] at forwarded
  exact ⟨ports', next, forwarded⟩

end

theorem exec_packetForward (row : Fin 17) (vc : Fin 16) (s : State) : exec (.packetForward row vc) s =
    runR (fun b => if b.live then b.forwardHead row vc else b) s := rfl

/-- The outcome of PACKET_FORWARD where the block that it leaves is quiet. -/
theorem exec_packetForward_live {s : State} {row : Fin 17} {vc : Fin 16} (live : s.live = true) {b : Block}
    (forwarded : s.forwardHead row vc = b) (quiet : b.quiet) :
    exec (.packetForward row vc) s = .next { s with toBlock := b } :=
  (exec_packetForward row vc s).trans (runR_settled ((if_pos live).trans forwarded) quiet)

end Sys2Proof.Machine
end

section
/-! ## Forwarding of unicast packets -/

open Sys2Proof Sys2Proof.Machine

/-- Settles O6: the head packet leaves its input, then either joins the queue of its next hop or is
delivered. -/
theorem packetForward : Obligations.PacketForward := by
  unfold Obligations.PacketForward
  refine ⟨?hop, ?deliver⟩
  case hop =>
    intro s row vc p q v live quiet not_copying not_made head sound unicast general hop turn up
    obtain ⟨k, th, ct, ports, next, forwarded, hops, rest, ptr, from_row⟩ :=
      Block.forwardHead_out not_copying not_made head sound unicast general hop turn up
    exact ⟨_, k, exec_packetForward_live live forwarded quiet, Tbl.get_set_self _ _ _ _, hops, rest, ptr,
      from_row, fun j hj => Tbl.get_set_ne _ _ _ _ hj, Block.dropHead_injQ _ _, Block.dropHead_rxQ _ _,
      Tbl.get_set_self _ _ _ _, rfl⟩
  case deliver =>
    intro s row vc p live quiet not_copying not_made head sound unicast hop
    obtain ⟨ports, next, forwarded⟩ :=
      Block.forwardHead_deliver not_copying not_made head sound unicast hop
    exact ⟨_, exec_packetForward_live live forwarded quiet, rfl, Block.dropHead_injQ _ _,
      Block.dropHead_rxQ _ _, rfl⟩
end

section
/-! ## Forwarding a packet that the router has made (R105, R114) -/

namespace Sys2Proof.Machine

/-- A packet that the router has made joins an output queue with its route as it is: the router has not taken a
hop of it. -/
theorem Block.joinOut_keeps (b : Block) (q v : Nat) (src : Src) (p : Pkt) :
    ∃ (k : QPkt) (th : Tbl Bool) (ct : Tbl Nat), b.joinOut q v src p =
      { b with outQ := Tbl.set [] b.outQ (pv q v) (queueOf b.outQ (pv q v) ++ [k])
               throttled := th, counters := ct } ∧
      k.pkt.hops = p.hops ∧ k.pkt.rest = p.rest ∧ k.pkt.ptr = p.ptr ∧ k.src = src := by
  obtain ⟨hops, rest, ptr⟩ := p.stamp_keeps (b.fill q v)
  obtain ⟨th, ct, joined⟩ := b.joinOut_eq q v src p
  generalize p.stamp (b.fill q v) = k at joined hops rest ptr
  exact ⟨⟨k, src⟩, th, ct, joined, hops, rest, ptr, rfl⟩

section
variable {b : Block} {vc q : Nat} {p : Pkt} {l : List (Pkt × List Nat)}
  (made : queueOf b.madeQ vc = (p, [q]) :: l) (general : p.priv = false) (up : b.portUp q = true)
include general up

theorem Block.madeOuts_single : b.madeOuts vc (p, [q]) = [(q, vc)] := by
  simp [Block.madeOuts, general, up]

include made

/-- It leaves the injection point for its port, and no copy of it is left to make. -/
theorem Block.forwardMade_single : b.forwardMade vc (p, [q]) [(q, vc)] =
    Block.joinOut { b with madeQ := Tbl.set [] b.madeQ vc l } q vc ⟨16, none⟩ p := by
  have stays_up : Block.portUp { b with madeQ := Tbl.set [] b.madeQ vc l } q = true := up
  simp [Block.forwardMade, Block.madeOuts_single general up, made, general, stays_up]

/-- What forwarding does to it once the turn of the injection point has come at its queue. -/
theorem Block.forwardHead_made (not_copying : b.copyHead 16 vc = none) (turn : b.inTurn 16 q vc = true) :
    ∃ (k : QPkt) (th : Tbl Bool) (ct : Tbl Nat), b.forwardHead 16 vc =
      { b with madeQ := Tbl.set [] b.madeQ vc l
               outQ := Tbl.set [] b.outQ (pv q vc) (queueOf b.outQ (pv q vc) ++ [k])
               throttled := th, counters := ct, rrIn := Tbl.set 16 b.rrIn (pv q vc) 16 } ∧
      k.pkt.hops = p.hops ∧ k.pkt.rest = p.rest ∧ k.pkt.ptr = p.ptr ∧ k.src = ⟨16, none⟩ := by
  have heads : b.madeHead 16 vc = some (p, [q]) := by simp [Block.madeHead, made]
  have outs : b.headOuts 16 vc = [(q, vc)] := by
    simp only [Block.headOuts, not_copying, heads, Block.madeOuts_single general up]
  have turns : b.turns 16 vc = [(q, vc)] := by simp [Block.turns, outs, turn]
  have may : b.mayForward 16 vc = true := by simp [Block.mayForward, turns]
  obtain ⟨k, th, ct, joined, keeps⟩ :=
    Block.joinOut_keeps { b with madeQ := Tbl.set [] b.madeQ vc l } q vc ⟨16, none⟩ p
  refine ⟨k, th, ct, ?_, keeps⟩
  simp only [Block.forwardHead, not_copying, heads, may, turns, if_true,
    Block.forwardMade_single made general up, joined]
  rfl

end

end Sys2Proof.Machine
end

section
/-! ## Forwarding of packets that the router has made -/

open Sys2Proof Sys2Proof.Machine

/-- Settles O7: a packet for one port leaves the injection point whole for that port's queue. That it goes before
what is injected on its VC is the model's order (log 156). -/
theorem madeForward : Obligations.MadeForward := by
  unfold Obligations.MadeForward
  intro s vc p q l live quiet not_copying made general up turn
  obtain ⟨k, th, ct, forwarded, hops, rest, ptr, from_injection⟩ :=
    Block.forwardHead_made made general up not_copying turn
  exact ⟨_, k, exec_packetForward_live live forwarded quiet, Tbl.get_set_self _ _ _ _, hops, rest, ptr,
    from_injection, fun j hj => Tbl.get_set_ne _ _ _ _ hj, Tbl.get_set_self _ _ _ _,
    fun j hj => Tbl.get_set_ne _ _ _ _ hj, Tbl.get_set_self 16 s.rrIn _ 16, rfl⟩
end

section
/-! ## The timers of a connection's paths (R101, R112) -/

namespace Sys2Proof.Machine

/-- The outcome of a command that changes one connection alone, and raises nothing. -/
theorem run_setCtx {f : Block → Block} {s : State} {c : Nat} {x : Ctx} (h : f s.toBlock = s.setCtx c x) :
    ∃ t : State, run f s = .next t ∧ t.ctx c = x ∧ (∀ k, k ≠ c → t.ctx k = s.ctx k) ∧
      t = { s with ctxs := t.ctxs } := by
  refine ⟨_, rfl, ?_⟩
  rw [h]
  exact ⟨Block.ctx_setCtx_self _ _ _, fun k hk => Block.ctx_setCtx_ne _ _ _ hk, rfl⟩

/-- The connection with the heat of path `j` halved at `now` (R101). -/
def Ctx.cooled (x : Ctx) (j now : Nat) : Ctx :=
  { x with heat := x.heat.set j (nth 0 x.heat j / 2), heatAt := x.heatAt.set j now }

/-- The connection with path `j` not held off (R112). -/
def Ctx.released (x : Ctx) (j : Nat) : Ctx := { x with holdUntil := x.holdUntil.set j none }

/-- Clearing an entry of a list of options clears it, whether the list has it or not. -/
theorem nth_set_none (l : List (Option α)) (i : Nat) : nth none (l.set i none) i = none := by
  by_cases h : i < l.length
  · exact nth_set_self none l none h
  · simp [nth, h]

theorem Ctx.released_held (x : Ctx) (j now : Nat) : (x.released j).held now j = false := by
  simp only [Ctx.held, Ctx.released, nth_set_none]

/-- HEAT_AGE where the path has had no echo for `HEAT_AGE`. -/
theorem exec_heatAge_due (c : Nat) (path : Fin 4) (s : State) (there : (s.ctx c).st ≠ .free)
    (due : nth 0 (s.ctx c).heatAt path + s.obj 0x4010 2 ≤ s.now) :
    ∃ t : State, exec (.heatAge c path) s = .next t ∧ t.ctx c = (s.ctx c).cooled path s.now ∧
      (∀ k, k ≠ c → t.ctx k = s.ctx k) ∧ t = { s with ctxs := t.ctxs } :=
  run_setCtx (if_pos ⟨there, due⟩)

theorem exec_pathHoldoff (c : Nat) (path : Fin 4) (s : State) :
    exec (.pathHoldoff c path) s = execPathHoldoff c path s := rfl

/-- PATH_HOLDOFF where the time of the path is up. -/
theorem exec_pathHoldoff_past (c : Nat) (path : Fin 4) (s : State) {u : Nat}
    (held : nth none (s.ctx c).holdUntil path = some u) (past : u ≤ s.now) :
    ∃ t : State, exec (.pathHoldoff c path) s = .next t ∧ t.ctx c = (s.ctx c).released path ∧
      (∀ k, k ≠ c → t.ctx k = s.ctx k) ∧ t = { s with ctxs := t.ctxs } := by
  rw [exec_pathHoldoff, execPathHoldoff]
  refine run_setCtx ?_
  simp only [held, past, if_true]
  rfl

end Sys2Proof.Machine
end

section
/-! ## Heats and hold-offs -/

open Sys2Proof Sys2Proof.Machine

/-- Settles O9: each timer writes the entry of its path in the record of its connection. -/
theorem pathTimers : Obligations.PathTimers := by
  unfold Obligations.PathTimers
  refine ⟨?heatAge, ?pathHoldoff⟩
  case heatAge =>
    intro s c path there heats times due
    obtain ⟨t, next, cooled, others, frame⟩ := exec_heatAge_due c path s there due
    refine ⟨t, next, ?_⟩
    rw [cooled]
    exact ⟨nth_set_self _ _ _ (by omega), nth_set_self _ _ _ (by omega),
      fun j hj => nth_set_ne _ _ _ hj, rfl, others, frame⟩
  case pathHoldoff =>
    intro s c path u held past
    obtain ⟨t, next, released, others, frame⟩ := exec_pathHoldoff_past c path s held past
    refine ⟨t, next, ?_⟩
    rw [released]
    exact ⟨Ctx.released_held _ _ _, fun j hj => nth_set_ne _ _ _ hj, rfl, others, frame⟩
end

section
/-! ## Fields of the packets that the block builds (R42 to R46) -/

namespace Sys2Proof.Machine

theorem slice_length (bs : Bytes) (off len : Nat) : (slice bs off len).length = len := by
  simp only [slice, zeros, List.length_append, List.length_replicate, List.length_take]
  omega

theorem slice_zero_of_ge {bs : Bytes} {n : Nat} (h : bs.length ≤ n) :
    slice bs 0 n = bs ++ zeros (n - bs.length) := by
  simp [slice, List.take_of_length_le h]

/-- The field that stands first is what was put there, cut to its bytes. -/
theorem fld_toLe_append_mod (k n : Nat) (rest : Bytes) : fld (toLe k n ++ rest) 0 k = n % 256 ^ k := by
  simp [fld]

theorem ctlPkt_rest (kind cls : Nat) (priv : Bool) (pvc part dst src kspec : Nat) (payload : Bytes) :
    (ctlPkt kind cls priv pvc part dst src kspec payload).rest =
      toLe 4 (mkHdr0 kind 0 cls priv pvc 4 part) ++ (toLe 4 dst ++ (toLe 4 src ++ (toLe 4 kspec ++
        slice payload 0 16))) := by
  simp only [ctlPkt, List.append_assoc]

/-- The transport header of a data packet comes first, in the order of R46. -/
theorem dataPkt_rest (h : DataHdr) (block payload : Bytes) : ∃ tail : Bytes, (dataPkt h block payload).rest =
    toLe 4 (mkHdr0 h.kind 1 h.cls h.priv h.pvc (6 + grainsOf payload.length) h.part) ++ (toLe 4 h.dst ++
      (toLe 4 h.src ++ (toLe 4 h.psn.toNat ++ tail))) := by
  simp only [dataPkt, List.append_assoc]
  exact ⟨_, rfl⟩

section
variable {p : Pkt} {hdr dst src psn : Nat} {tail : Bytes}
  (spelt : p.rest = toLe 4 hdr ++ (toLe 4 dst ++ (toLe 4 src ++ (toLe 4 psn ++ tail))))
include spelt

theorem Pkt.hdr0_of_rest : p.hdr0 = hdr % 2 ^ 32 := by
  simp [Pkt.hdr0, Pkt.at_, spelt, fld_toLe_append_mod]

theorem Pkt.dstFa_of_rest : p.dstFa = dst % 2 ^ 32 := by
  simp [Pkt.dstFa, Pkt.at_, spelt, fld_append_skip, fld_toLe_append_mod]

theorem Pkt.psn_of_rest : p.psn = BitVec.ofNat 32 psn := by
  apply BitVec.eq_of_toNat_eq
  simp [Pkt.psn, Pkt.at_, spelt, fld_append_skip, fld_toLe_append_mod]

/-- What follows the first 16 bytes of the header starts at byte 48 of the packet. -/
theorem Pkt.at_tail_of_rest {off len : Nat} (h : 48 ≤ off) : p.at_ off len = fld tail (off - 48) len := by
  have places : off - 32 - 4 - 4 - 4 - 4 = off - 48 := by omega
  rw [Pkt.at_, spelt, fld_append_skip _ _ _ _ _ (by omega), fld_append_skip _ _ _ _ _ (by omega),
    fld_append_skip _ _ _ _ _ (by omega), fld_append_skip _ _ _ _ _ (by omega), places]

end

end Sys2Proof.Machine
end

section
/-! ## What counting leaves alone (R409, R413) -/

namespace Sys2Proof.Machine

/-- From `s` to `t` nothing but counters changes. -/
def countersOnly (s t : Block) : Prop := ∃ ct, t = { s with counters := ct }

theorem countersOnly.refl (b : Block) : countersOnly b b := ⟨b.counters, rfl⟩

theorem countersOnly.trans {r s t : Block} (h : countersOnly r s) (h' : countersOnly s t) :
    countersOnly r t := by
  obtain ⟨_, rfl⟩ := h
  obtain ⟨_, rfl⟩ := h'
  exact ⟨_, rfl⟩

theorem Block.count_countersOnly (b : Block) (c n : Nat) : countersOnly b (b.count c n) := by
  rcases b.count_eq c n with eq | ⟨ct, eq⟩ <;> rw [eq]
  · exact .refl b
  · exact ⟨ct, rfl⟩

theorem countersOnly.foldl {f : Block → α → Block} (h : ∀ b x, countersOnly b (f b x)) (l : List α)
    (b : Block) : countersOnly b (l.foldl f b) := by
  induction l generalizing b with
  | nil => exact .refl b
  | cons x l ih => exact (h b x).trans (ih _)

theorem Block.countEvent_countersOnly (b : Block) (ev fid : Nat) (q : Option Nat) (n : Nat) :
    countersOnly b (b.countEvent ev fid q n) := by
  refine countersOnly.foldl (fun b e => ?_) _ b
  obtain ⟨c, counted, scope, target⟩ := e
  dsimp only
  split
  · exact b.count_countersOnly _ _
  · exact .refl b

end Sys2Proof.Machine
end

section
/-! ## Records of delivery reports (R116) -/

namespace Sys2Proof.Machine

theorem Block.takeArrival_there {b : Block} {i format kind : Nat} {a : Arrival}
    (there : b.delivery[i]? = some a) (hf : a.pkt.format = format) (hk : a.pkt.kind = kind) :
    b.takeArrival i format kind = some (a, { b with delivery := b.delivery.eraseIdx i }) := by
  simp [Block.takeArrival, there, hf, hk]

/-- A record that is not whole, and that alone keeps the block from being quiet, stays open. -/
theorem Block.settle_open {b : Block} {r : ReportRec} (quiet : b.quiet)
    (waits : b.reportWhole (Tbl.get 0 b.sprue r.tree) r = false) :
    Block.settle { b with reports := [r] } = { b with reports := [r] } := by
  obtain ⟨reacts, lost, -, places, reads, mnet, due, loads, plca⟩ := quiet
  have early : b.loadWait.all (fun w => decide (w.1 < pauseKey)) = true := by
    simpa only [List.all_eq_true, decide_eq_true_eq] using loads
  have drained := Block.drain_none (b := { b with reports := [r] }) reacts lost drainFuel
  have kept : Block.sweepReports { b with reports := [r] } = { b with reports := [r] } := by
    have still : Block.reportWhole { b with reports := [r] } (Tbl.get 0 b.sprue r.tree) r = false := waits
    simp [Block.sweepReports, still]
  simp only [Block.settle, due, drained, early, mnet, plca, reads, places, kept, List.isEmpty_nil,
    List.isEmpty_cons, Bool.false_and, Bool.false_eq_true, if_true, if_false]

theorem runR_open {f : Block → Block} {s : State} {b : Block} {r : ReportRec}
    (h : f s.toBlock = { b with reports := [r] }) (quiet : b.quiet)
    (waits : b.reportWhole (Tbl.get 0 b.sprue r.tree) r = false) :
    runR f s = .next { s with toBlock := { b with reports := [r] } } := by
  simp only [runR, h, Block.settle_open quiet waits]

/-- The record that a first contribution opens (R116, log 27). -/
def Block.firstRecord (b : Block) (tree : Nat) (key : BitVec 32) (from_ part delivered fenced : Nat) :
    ReportRec :=
  { tree := tree, key := key, delivered := delivered, fenced := fenced, count := 1, from_ := [from_],
    openedAt := b.now, wait := b.obj 0x4010 6, part := part }

section
variable {b : Block} {w tree : Nat} {key : BitVec 32} {from_ k : Nat}
  (more : 1 < sprueChildren w) (child : k ∈ sprueKids w) (other : k ≠ from_)
  (up : k = 16 ∨ b.portUp k = true)
include more child other up

/-- A record with one contribution waits for a further child that can still be heard. -/
theorem Block.firstRecord_not_whole (part delivered fenced : Nat) :
    b.reportWhole w (b.firstRecord tree key from_ part delivered fenced) = false := by
  have missing : ([from_].contains k || (k != 16 && !b.portUp k)) = false := by
    rcases up with rfl | up
    · simp [other]
    · simp [other, up]
  have few : ¬ sprueChildren w ≤ 1 := by omega
  simp only [Block.reportWhole, Block.firstRecord, few, decide_false, Bool.false_or, List.all_eq_false]
  exact ⟨k, child, by rw [missing]; decide⟩

/-- The first contribution opens a record, which stays open. -/
theorem Block.addReport_first (valid : sprueValid w = true) (ours : from_ ∈ sprueKids w)
    (fresh : (tree, key) ∉ b.closedReports) (alone : b.reports = []) (part delivered fenced : Nat) :
    b.addReport w tree key from_ part delivered fenced =
      { b with reports := [b.firstRecord tree key from_ part delivered fenced] } := by
  have waits := Block.firstRecord_not_whole more child other up (b := b) (tree := tree) (key := key) part
    delivered fenced
  have still : Block.reportWhole
      { b with reports := [b.firstRecord tree key from_ part delivered fenced] } w
      (b.firstRecord tree key from_ part delivered fenced) = false := waits
  simp only [Block.firstRecord] at still
  simp [Block.addReport, valid, ours, fresh, alone, Block.firstRecord, still]

end

theorem exec_deliveryReport (i : Nat) (s : State) : exec (.deliveryReport i) s = execDeliveryReport i s := rfl

/-- A report as it comes in: the first contribution to its record. -/
theorem exec_deliveryReport_first {s : State} {i : Nat} {a : Arrival} (live : s.live = true)
    (there : s.delivery[i]? = some a) (hf : a.pkt.format = 0) (hk : a.pkt.kind = 5) {b : Block} {r : ReportRec}
    (added : Block.addReport { s.toBlock with delivery := s.delivery.eraseIdx i } a.entry a.pkt.tree a.pkt.psn
      a.row a.pkt.partition (a.pkt.at_ 48 4) (a.pkt.at_ 52 4) = { b with reports := [r] })
    (quiet : b.quiet) (waits : b.reportWhole (Tbl.get 0 b.sprue r.tree) r = false) :
    exec (.deliveryReport i) s = .next { s with toBlock := { b with reports := [r] } } := by
  rw [exec_deliveryReport, execDeliveryReport]
  refine runR_open ?_ quiet waits
  simp only [live, Block.takeArrival_there there hf hk, Bool.not_true, Bool.false_eq_true, if_false]
  exact added

end Sys2Proof.Machine
end

section
/-! ## A multicast copy lands (R119, R155, R156, R158) -/

namespace Sys2Proof.Machine

/-- Using a region that is in the cache only notes when. -/
def Reg.touched (r : Reg) (now : Nat) : Reg := { r with used := now }

theorem Block.touchKey_cached {b : Block} {hl key k : Nat} {r : Reg} (names : b.keyCheck hl key = .region k r)
    (cached : r.spilled = false) : b.touchKey hl key = (true, b.setReg k (r.touched b.now)) := by
  simp [Block.touchKey, names, cached, Reg.touched]

/-- The checks of R156 pass where the key grants the access. -/
theorem Block.targetOf_grants {b : Block} {a : Arrival} {hl key pd right addr n k : Nat} {r : Reg}
    (unpassed : a.passed = none) (grants : b.grants hl key pd right addr n k r) :
    b.targetOf a hl key pd right addr n = (.ok k r, b.setReg k (r.touched b.now)) := by
  obtain ⟨names, cached, owner, allowed, within⟩ := grants
  simp [Block.targetOf, unpassed, Block.targetCheck, names, Block.touchKey_cached names cached, owner,
    allowed, within]

/-- A write that can be issued leaves for the host. -/
theorem Block.hostWrite_issued {b : Block} {fid addr : Nat} {pasid : Option Nat} {data : Bytes}
    (filled : data.length ≠ 0) (can : b.canIssue fid pasid addr data.length = true) (relaxed : Bool) :
    b.hostWrite fid pasid relaxed addr data =
      (true, b.emit (.hostWrite (fidLink fid) fid pasid relaxed addr data)) := by
  simp [Block.hostWrite, filled, can]

theorem Block.remapping_none {b : Block} {fid : Nat} (h : (b.link (fidLink fid)).invWait = [])
    (pasid : Option Nat) (addr len : Nat) : b.remapping fid pasid addr len = false := by
  simp [Block.remapping, h]

theorem Pkt.payload_length (p : Pkt) : p.payload.length = p.plen := slice_length _ _ _

section
variable {b : Block} {a : Arrival} {key k : Nat} {r : Reg} {addr : Nat} (unpassed : a.passed = none)
  (member : b.fencedOut a.pkt = false) (bound : (b.ep (faEp a.pkt.dstFa)).mcastKey = some key)
  (plain : a.pkt.at_ 72 4 = 0) (filled : a.pkt.plen ≠ 0) (inside : a.pkt.offset + a.pkt.plen ≤ a.pkt.at_ 76 4)
  (grants : b.grants (b.ep (faEp a.pkt.dstFa)).hl key (b.ep (faEp a.pkt.dstFa)).pd rightWrite addr a.pkt.plen k r)
  (host : r.pool = false) (can : b.canIssue r.fid r.pasid (r.dma addr) a.pkt.plen = true)
  (mapped : (b.link (fidLink r.fid)).invWait = []) (awake : b.asleep (b.ep (faEp a.pkt.dstFa)).fid = false)
include unpassed member bound plain filled inside grants host can mapped awake

/-- A copy whose checks pass is written, and this node adds one delivery to the gather. -/
theorem Block.mcastLand_writes (place : addr = a.pkt.at_ 64 8 + a.pkt.offset) : ∃ ct : Tbl Nat, b.mcastLand a =
    (.adds 1 0, { (b.setReg k (r.touched b.now)).emit
      (.hostWrite (fidLink r.fid) r.fid r.pasid r.relaxed (r.dma addr) a.pkt.payload) with counters := ct }) := by
  subst place
  have lands : ¬(a.pkt.at_ 72 4 ≠ 0 ∨ a.pkt.plen = 0 ∨ a.pkt.at_ 76 4 < a.pkt.offset + a.pkt.plen) := by omega
  have unmapped : (b.setReg k (r.touched b.now)).remapping r.fid r.pasid
      (r.dma (a.pkt.at_ 64 8 + a.pkt.offset)) a.pkt.plen = false := Block.remapping_none mapped _ _ _
  have written := Block.hostWrite_issued (b := b.setReg k (r.touched b.now)) (data := a.pkt.payload)
    (by rwa [Pkt.payload_length]) (by rw [Pkt.payload_length]; exact can) r.relaxed
  obtain ⟨ct, counted⟩ := Block.countEvent_countersOnly
    ((b.setReg k (r.touched b.now)).emit (.hostWrite (fidLink r.fid) r.fid r.pasid r.relaxed
      (r.dma (a.pkt.at_ 64 8 + a.pkt.offset)) a.pkt.payload)) 4 r.fid none a.pkt.plen
  refine ⟨ct, ?_⟩
  simp only [Block.mcastLand, unpassed, member, bound, lands, awake, Block.targetOf_grants unpassed grants,
    Block.awaitsMap, unmapped, Block.regWrite, host, written, counted, Option.isNone_none, Option.isSome_none,
    Bool.and_false, Bool.false_eq_true, if_false, if_true]

end

theorem exec_mcastPut (i : Nat) (s : State) : exec (.mcastPut i) s = execMcastPut i s := rfl

/-- A copy as it comes in: it adds the first contribution to its record. -/
theorem exec_mcastPut_first {s : State} {i d f : Nat} {a : Arrival} (live : s.live = true)
    (there : s.delivery[i]? = some a) (hf : a.pkt.format = 1) (hk : a.pkt.kind = 8) {b c : Block}
    {r : ReportRec}
    (landed : Block.mcastLand { s.toBlock with delivery := s.delivery.eraseIdx i } a = (.adds d f, c))
    (added : c.addReport a.entry a.pkt.tree a.pkt.psn 16 a.pkt.partition d f = { b with reports := [r] })
    (quiet : b.quiet) (waits : b.reportWhole (Tbl.get 0 b.sprue r.tree) r = false) :
    exec (.mcastPut i) s = .next { s with toBlock := { b with reports := [r] } } := by
  rw [exec_mcastPut, execMcastPut]
  refine runR_open ?_ quiet waits
  simp only [live, Block.takeArrival_there there hf hk, landed, Bool.not_true, Bool.false_eq_true, if_false]
  exact added

end Sys2Proof.Machine
end

section
/-! ## A record closes at the end of its wait (R114, R116) -/

namespace Sys2Proof.Machine

/-- A report carries the sums of its record (R44). -/
theorem deliveryReport_fields (node dst : Nat) (r : ReportRec) :
    (deliveryReport node dst r).psn = r.key ∧ (deliveryReport node dst r).at_ 48 4 = r.delivered % 2 ^ 32 ∧
      (deliveryReport node dst r).at_ 52 4 = r.fenced % 2 ^ 32 := by
  have spelt : (deliveryReport node dst r).rest = _ := ctlPkt_rest _ _ _ _ _ _ _ _ _
  have whole := slice_zero_of_ge (bs := toLe 4 r.delivered ++ toLe 4 r.fenced ++ toLe 2 r.tree) (n := 16)
    (by simp)
  rw [whole] at spelt
  refine ⟨?_, ?_, ?_⟩
  · rw [Pkt.psn_of_rest spelt, BitVec.ofNat_toNat, BitVec.setWidth_eq]
  · simp [Pkt.at_tail_of_rest spelt, fld_toLe_append_mod]
  · simp [Pkt.at_tail_of_rest spelt, fld_append_skip, fld_toLe_append_mod]

/-- The only open record closes, and away from the root its report waits to go up the tree. -/
theorem Block.closeReport_up {b : Block} {w : Nat} {r : ReportRec} (alone : b.reports = [r])
    (inner : sprueRoot w = false) : ∃ dst : Nat, b.closeReport w r =
      { b with reports := [], closedReports := ((r.tree, r.key) :: b.closedReports).take 16384
               madeQ := Tbl.set [] b.madeQ (2 * sprueLayer w + 1) (queueOf b.madeQ (2 * sprueLayer w + 1) ++
                 [(deliveryReport b.nodeId dst r, [sprueParent w])])
               fresh := b.fresh + 1 } := by
  refine ⟨Config.freeNat b.fresh (2 ^ 32) % 2 ^ 32, ?_⟩
  simp only [Block.closeReport, alone, inner, Bool.false_eq_true, if_false, List.filter_cons, List.filter_nil,
    beq_self_eq_true, Bool.and_self, Bool.not_true]
  rfl

theorem exec_gatherWait (tree : Fin 4096) (key : BitVec 32) (s : State) :
    exec (.gatherWait tree key) s = execGatherWait tree key s := rfl

/-- GATHER_WAIT where the only open record has been open for its wait. -/
theorem exec_gatherWait_due {s : State} {tree : Fin 4096} {r : ReportRec} (live : s.live = true)
    (alone : s.reports = [r]) (here : r.tree = tree.val) (due : r.openedAt + r.wait ≤ s.now) {b : Block}
    (closed : s.toBlock.closeReport (Tbl.get 0 s.sprue tree) r = b) (quiet : b.quiet) :
    exec (.gatherWait tree r.key) s = .next { s with toBlock := b } := by
  rw [exec_gatherWait, execGatherWait]
  refine runR_settled ?_ quiet
  simp only [alone, here, live, due, List.find?_cons, beq_self_eq_true, Bool.and_self, decide_true, if_true]
  exact closed

end Sys2Proof.Machine
end

section
/-! ## Delivery reports -/

open Sys2Proof Sys2Proof.Machine

/-- Settles O10: the first contribution to a record opens it and leaves it open while another child can be heard;
the end of its wait closes it. That its partition is that of the packet that opened it is the model's choice
(log 27). -/
theorem multicastReports : Obligations.MulticastReports := by
  unfold Obligations.MulticastReports
  refine ⟨?report, ?copy, ?wait⟩
  case report =>
    intro s i a k live quiet there format kind entry valid ours more child other up fresh
    have ⟨_, _, alone, _⟩ := quiet
    have added := Block.addReport_first (b := { s.toBlock with delivery := s.delivery.eraseIdx i })
      more child other up valid ours fresh alone a.pkt.partition (a.pkt.at_ 48 4) (a.pkt.at_ 52 4)
    rw [← entry] at added
    exact ⟨_, exec_deliveryReport_first live there format kind added quiet
      (Block.firstRecord_not_whole more child other up _ _ _), rfl, rfl⟩
  case copy =>
    intro s i a k kk key r live quiet there _ unpassed format kind member bound plain filled inside grants
      host can mapped awake entry valid ours more child other up fresh
    have ⟨_, _, alone, _⟩ := quiet
    obtain ⟨ct, landed⟩ := Block.mcastLand_writes
      (b := { s.toBlock with delivery := s.delivery.eraseIdx i })
      unpassed member bound plain filled inside grants host can mapped awake rfl
    generalize written : ({ Block.emit _ _ with counters := ct } : Block) = c at landed
    have added := Block.addReport_first (b := c) (key := a.pkt.psn) (tree := a.pkt.tree)
      more child other (.inr (by rw [← written]; exact up)) valid ours (by rw [← written]; exact fresh)
      (by rw [← written]; exact alone) a.pkt.partition 1 0
    rw [← entry] at added
    subst written
    exact ⟨_, exec_mcastPut_first live there format kind landed added quiet
      (Block.firstRecord_not_whole more child other (.inr up) _ _ _), rfl, ⟨_, rfl, rfl, rfl, rfl, rfl, rfl⟩, rfl⟩
  case wait =>
    intro s tree r live quiet alone here due inner
    obtain ⟨dst, closed⟩ := Block.closeReport_up (b := s.toBlock) alone inner
    obtain ⟨key, delivered, fenced⟩ := deliveryReport_fields s.nodeId dst r
    refine ⟨_, _, exec_gatherWait_due live alone here due closed quiet, rfl, ?_, rfl, key, delivered, fenced, rfl⟩
    rw [← here]
    exact List.mem_cons_self
end

section
/-! ## Lists of pairs by key -/

namespace Sys2Proof.Machine

theorem lookup_update1_self (k : Nat) (f : α → α) (l : List (Nat × α)) :
    lookup k (update1 k f l) = (lookup k l).map f := by
  induction l with
  | nil => rfl
  | cons e l ih =>
    obtain ⟨j, v⟩ := e
    by_cases h : j = k <;> simp [update1, lookup, h, ih]

theorem lookup_update1_ne {k k' : Nat} (h : k' ≠ k) (f : α → α) (l : List (Nat × α)) :
    lookup k' (update1 k f l) = lookup k' l := by
  induction l with
  | nil => rfl
  | cons e l ih =>
    obtain ⟨j, v⟩ := e
    by_cases hj : j = k
    · subst hj
      simp [update1, lookup, h.symm]
    · simp [update1, lookup, hj, ih]

end Sys2Proof.Machine
end

section
/-! ## Building a request (R42, R46, R48, R49) -/

namespace Sys2Proof.Machine

/-- The packet goes to `dst` under `psn`, and counts as arriving on VC 0 at the injection point (R38): it is a
general packet of class 0. -/
def Pkt.requests (p : Pkt) (psn : BitVec 32) (dst : Nat) : Prop :=
  p.vcOn 0 = 0 ∧ p.psn = psn ∧ p.dstFa = dst % 2 ^ 32

/-- None of this lies in the route field. -/
theorem Pkt.requests_of_rest {p q : Pkt} {psn : BitVec 32} {dst : Nat} (h : p.requests psn dst)
    (same : q.rest = p.rest) : q.requests psn dst := by
  obtain ⟨hops, cw, rest⟩ := p
  obtain ⟨hops', cw', rest'⟩ := q
  subst same
  exact h

/-- `HDR0` of a general packet of class 0 has `CLASS` and `PRIV` clear. -/
theorem mkHdr0_request {kind format : Nat} (hk : kind < 64) (hf : format < 4) (pvc grains part : Nat) :
    bits (mkHdr0 kind format 0 false pvc grains part % 2 ^ 32) 8 8 = 0 ∧
      bit (mkHdr0 kind format 0 false pvc grains part % 2 ^ 32) 9 = false := by
  simp only [mkHdr0, b2n, bits, bit, Nat.testBit_eq_decide_div_mod_eq, decide_eq_false_iff_not,
    Bool.false_eq_true, if_false]
  omega

theorem Pkt.requests_of_spelt {p : Pkt} {kind format pvc grains part dst src : Nat} {psn : BitVec 32}
    {tail : Bytes} (hk : kind < 64) (hf : format < 4)
    (spelt : p.rest = toLe 4 (mkHdr0 kind format 0 false pvc grains part) ++ (toLe 4 dst ++ (toLe 4 src ++
      (toLe 4 psn.toNat ++ tail)))) : p.requests psn dst := by
  obtain ⟨cls, general⟩ := mkHdr0_request hk hf pvc grains part
  refine ⟨?_, ?_, Pkt.dstFa_of_rest spelt⟩
  · rw [← Pkt.hdr0_of_rest spelt] at cls general
    simp [Pkt.vcOn, Pkt.priv, Pkt.cls, cls, general]
  · rw [Pkt.psn_of_rest spelt, BitVec.ofNat_toNat, BitVec.setWidth_eq]

theorem dataPkt_requests {h : DataHdr} (hk : h.kind < 64) (general : h.priv = false) (cls : h.cls = 0)
    (block payload : Bytes) : (dataPkt h block payload).requests h.psn h.dst := by
  obtain ⟨tail, spelt⟩ := dataPkt_rest h block payload
  rw [general, cls] at spelt
  exact Pkt.requests_of_spelt hk (by decide) spelt

/-- Every kind but RDV_FIN, which travels in a control packet, fits the field `KIND`. -/
theorem OpKind.code_lt {k : OpKind} (h : k ≠ .fin) : k.code < 64 := by
  revert h
  cases k <;> decide

/-- The packet of an operation goes to the other side of its connection under the PSN that it is given. -/
theorem Block.reqPkt_requests (b : Block) (x : Ctx) (o : Op) (psn msn : BitVec 32) (off : Nat)
    (payload : Bytes) (ack : Bool) (path : Nat) :
    (b.reqPkt x o psn msn off payload ack path).requests psn x.remoteFa := by
  by_cases fin : o.kind = .fin
  · simp only [Block.reqPkt, fin, if_true]
    exact Pkt.requests_of_spelt (by decide) (by decide) (ctlPkt_rest _ _ _ _ _ _ _ _ _)
  · simp only [Block.reqPkt, fin, if_false]
    exact dataPkt_requests (OpKind.code_lt fin) rfl rfl _ _

end Sys2Proof.Machine
end

section
/-! ## Putting a request on its path (R37, R38, R102) -/

namespace Sys2Proof.Machine

/-- The block with packet `k` behind those that wait at the injection point on VC 0, and with these connections,
operations and counters. -/
def Block.withSent (b : Block) (k : Pkt) (cs : Tbl Ctx) (ops : List (Nat × Op)) (ct : Tbl Nat) : Block :=
  { b with injQ := Tbl.set [] b.injQ 0 (queueOf b.injQ 0 ++ [k]), ctxs := cs, ops := ops, counters := ct }

theorem Block.inject_request {p : Pkt} {psn : BitVec 32} {dst : Nat} (h : p.requests psn dst) (b : Block) :
    b.inject p = b.withSent p b.ctxs b.ops b.counters := by
  obtain ⟨vc, -, -⟩ := h
  simp only [Block.inject, vc]
  rfl

/-- Of the connections only the packet's own changes, and of it only the path that a tie is counted from. -/
theorem Block.launch_request {p : Pkt} {psn : BitVec 32} {dst : Nat} (h : p.requests psn dst) (b : Block)
    (c j : Nat) (pth : Path) : ∃ (k : Pkt) (cs : Tbl Ctx), b.launch false c j pth p =
      b.withSent k cs b.ops b.counters ∧ k.requests psn dst ∧
      (∃ path, Tbl.get {} cs c = { b.ctx c with lastPath := path }) ∧
      ∀ d, d ≠ c → Tbl.get {} cs d = b.ctx d := by
  simp only [Block.launch, Bool.false_eq_true, if_false]
  split
  · exact ⟨p, b.ctxs, Block.inject_request h b, h, ⟨(b.ctx c).lastPath, rfl⟩, fun d _ => rfl⟩
  · have routed : (p.withRoute pth).requests psn dst := Pkt.requests_of_rest h rfl
    exact ⟨p.withRoute pth, _, Block.inject_request routed _, routed, ⟨j, Tbl.get_set_self _ _ _ _⟩,
      fun d hd => Tbl.get_set_ne _ _ _ _ hd⟩

theorem Block.countSent_countersOnly (b : Block) (o : Op) (n : Nat) (again : Bool) :
    countersOnly b (b.countSent o n again) := by
  unfold Block.countSent
  dsimp only
  split
  · exact (b.countEvent_countersOnly _ _ _ _).trans
      ((Block.count_countersOnly _ _ _).trans (Block.countEvent_countersOnly _ _ _ _ _))
  · exact b.countEvent_countersOnly _ _ _ _

/-- Where no counter is programmed, an event counts nothing (R413). -/
theorem Block.countEvent_unprogrammed {b : Block} (h : b.ctrEvent = []) (ev fid : Nat) (q : Option Nat)
    (n : Nat) : b.countEvent ev fid q n = b := by
  simp [Block.countEvent, h]

/-- A retransmission is counted (R409). -/
theorem Block.countSent_again {b : Block} (calm : b.quench = false) (h : b.ctrEvent = []) (o : Op) (n : Nat) :
    (b.countSent o n true).counter 517 = min (b.counter 517 + 1) counterMax := by
  have still : (b.count 517 1).ctrEvent = [] := by rw [Block.count_ctrEvent, h]
  simp [Block.countSent, Block.countEvent_unprogrammed h, Block.countEvent_unprogrammed still, calm]

/-- The packet of an operation goes out once its connection and the operation have been brought up to date. -/
theorem Block.send_request {p : Pkt} {psn : BitVec 32} {dst : Nat} (h : p.requests psn dst) (b : Block)
    (n c j len : Nat) (x : Ctx) (f : Op → Op) (o : Op) (again : Bool) (pth : Path) :
    ∃ (k : Pkt) (cs : Tbl Ctx) (ct : Tbl Nat),
      (((b.setCtx c x).modOp n f).countSent o len again).launch false c j pth p =
        b.withSent k cs (update1 n f b.ops) ct ∧ k.requests psn dst ∧
      (∃ path, Tbl.get {} cs c = { x with lastPath := path }) ∧
      (∀ d, d ≠ c → Tbl.get {} cs d = b.ctx d) ∧
      (again = true → b.quench = false → b.ctrEvent = [] →
        Tbl.get 0 ct 517 = min (b.counter 517 + 1) counterMax) := by
  obtain ⟨ct, counted⟩ := Block.countSent_countersOnly ((b.setCtx c x).modOp n f) o len again
  have retried : again = true → b.quench = false → b.ctrEvent = [] →
      Tbl.get 0 ct 517 = min (b.counter 517 + 1) counterMax := by
    rintro rfl calm unprogrammed
    have seen := Block.countSent_again (b := (b.setCtx c x).modOp n f) calm unprogrammed o len
    rw [counted] at seen
    exact seen
  obtain ⟨k, cs, launched, req, ⟨path, own⟩, others⟩ := Block.launch_request h
    (((b.setCtx c x).modOp n f).countSent o len again) c j pth
  rw [counted] at launched own others
  have was : ({ (b.setCtx c x).modOp n f with counters := ct } : Block).ctx c = x := Tbl.get_set_self _ _ _ _
  rw [was] at own
  rw [counted]
  exact ⟨k, cs, ct, launched, req, ⟨path, own⟩,
    fun d hd => (others d hd).trans (Tbl.get_set_ne _ _ _ _ hd), retried⟩

end Sys2Proof.Machine
end

section
/-! ## Which packet a unicast operation sends (R102, R118, R142) -/

namespace Sys2Proof.Machine

theorem Block.injectOp_uni {b : Block} {n : Nat} {o : Op} (there : b.op n = some o) (uni : o.kind ≠ .mcast) :
    b.injectOp n = b.injectUni n o := by
  simp [Block.injectOp, there, uni]

theorem Block.injectOp_mcast {b : Block} {n : Nat} {o : Op} (there : b.op n = some o) (mcast : o.kind = .mcast) :
    b.injectOp n = b.injectMcast n o := by
  simp [Block.injectOp, there, mcast]

/-- The connection with its use noted (R130). -/
def Ctx.noteUse (x : Ctx) (now : Nat) : Ctx := { x with used := now }

/-- The block with the use of connection `c` noted (R130). -/
def Block.usedCtx (b : Block) (c : Nat) : Block := b.setCtx c ((b.ctx c).noteUse b.now)

theorem Block.ctx_usedCtx (b : Block) (c : Nat) : (b.usedCtx c).ctx c = (b.ctx c).noteUse b.now :=
  Block.ctx_setCtx_self _ _ _

section
variable {b : Block} {n j : Nat} {o : Op} {pth : Path} (sends : b.ctxSends o.ctx)
  (path : b.reqPath (b.ctx o.ctx) = .path j pth)
include sends path

theorem Block.injectUni_new (none_again : o.resend = []) (more : o.allSent = false) :
    b.injectUni n o = (b.usedCtx o.ctx).injectNew n o j pth := by
  obtain ⟨active, cached, may⟩ := sends
  have may' : (b.usedCtx o.ctx).mayInject (b.ctx o.ctx) = true := may
  have path' : (b.usedCtx o.ctx).reqPath (b.ctx o.ctx) = .path j pth := path
  have touched : b.touchCtx o.ctx = (true, b.usedCtx o.ctx) := Block.touchCtx_cached cached
  simp [Block.injectUni, active, none_again, more, touched, may', path']

theorem Block.injectUni_again {psn : BitVec 32} {rest : List (BitVec 32)} {u : Unans}
    (queued : o.resend = psn :: rest) (waits : (b.ctx o.ctx).unans.find? (fun v => v.psn == psn) = some u)
    (first : b.resendFirst o.ctx psn = true) :
    b.injectUni n o = (b.usedCtx o.ctx).injectAgain n o psn u j pth := by
  obtain ⟨active, cached, may⟩ := sends
  have may' : (b.usedCtx o.ctx).mayInject (b.ctx o.ctx) = true := may
  have path' : (b.usedCtx o.ctx).reqPath (b.ctx o.ctx) = .path j pth := path
  have first' : (b.usedCtx o.ctx).resendFirst o.ctx psn = true := first
  have touched : b.touchCtx o.ctx = (true, b.usedCtx o.ctx) := Block.touchCtx_cached cached
  simp [Block.injectUni, active, queued, touched, may', path', waits, first']

end

end Sys2Proof.Machine
end

section
/-! ## A new packet (R102, R132 to R134, R142) -/

namespace Sys2Proof.Machine

/-- How far the packet at `next` takes the operation. -/
def Op.stride (o : Op) : Nat :=
  match o.kind with
  | .get => o.pktLen o.next
  | .pull => o.pktLen o.next
  | _ => 4096

theorem Op.stride_eq (o : Op) :
    o.stride = if o.kind = .get ∨ o.kind = .pull then o.pktLen o.next else 4096 := by
  cases kind : o.kind <;> simp [Op.stride, kind]

/-- What the sending of the next packet of `o`, on path `j`, makes of the operation. -/
def Op.sentNext (o : Op) (msn : BitVec 32) (j : Nat) (x : Op) : Op :=
  (({ x with started := true, msn := msn, next := o.next + o.stride, allSent := o.lastAt o.next } : Op).used
    o.next).traced fun t => { t with path := j }

/-- The PSNs that the next packet of operation `n`, which is `o`, takes from `psn` on. -/
def Op.nextUnans (o : Op) (n : Nat) (psn msn : BitVec 32) (j : Nat) : List Unans :=
  (List.range (o.pktPsns o.next)).map fun i =>
    { psn := psn + BitVec.ofNat 32 i, op := n, kind := o.kind.code, off := o.next + 4096 * i,
      len := if o.pktPsns o.next = 1 ∧ o.kind ≠ .get ∧ o.kind ≠ .pull then o.pktLen o.next
        else min 4096 (o.next + o.pktLen o.next - (o.next + 4096 * i)),
      msn := msn, path := j }

theorem Op.nextUnans_op {o : Op} {n : Nat} {psn msn : BitVec 32} {j : Nat} {u : Unans}
    (h : u ∈ o.nextUnans n psn msn j) : u.op = n := by
  obtain ⟨i, -, rfl⟩ := List.mem_map.mp h
  rfl

theorem Op.nextUnans_psns (o : Op) (n : Nat) (psn msn : BitVec 32) (j : Nat) :
    (o.nextUnans n psn msn j).map (·.psn) =
      (List.range (o.pktPsns o.next)).map fun i => psn + BitVec.ofNat 32 i := by
  simp only [Op.nextUnans, List.map_map]
  rfl

/-- The connection with `l` unanswered behind what is, and `k` PSNs used up; a new message takes an MSN too. -/
def Ctx.sentNext (x : Ctx) (k : Nat) (l : List Unans) (opens : Bool) (now : Nat) : Ctx :=
  ({ x with nextPsn := x.nextPsn + BitVec.ofNat 32 k, unans := x.unans ++ l,
            nextMsn := if opens then x.nextMsn + 1 else x.nextMsn } : Ctx).setTimer now false

/-- The block after the next piece of payload has been asked for, where the operation has more to send. -/
def Block.readAhead (b : Block) (n : Nat) (o : Op) : Block :=
  if hasPayload o.kind.code && !o.lastAt o.next then
    b.readPayload n (o.next + o.stride) (o.pktLen (o.next + o.stride))
  else b

section
variable {b : Block} {n j : Nat} {o : Op} {pth : Path} {pl : Bytes} (at_hand : o.payloadAt o.next = some pl)
  (room : ahead32 (b.ctx o.ctx).nextPsn (b.ctx o.ctx).oldest + o.pktPsns o.next ≤ 1024)
include at_hand room

theorem Block.injectNew_eq : ∃ (msn : BitVec 32) (opens ack : Bool), b.injectNew n o j pth =
    ((((b.setCtx o.ctx ((b.ctx o.ctx).sentNext (o.pktPsns o.next)
        (o.nextUnans n (b.ctx o.ctx).nextPsn msn j) opens b.now)).modOp n (o.sentNext msn j)).countSent
        o pl.length false).launch (o.spoilt.contains o.next) o.ctx j pth
        (b.reqPkt (b.ctx o.ctx) o (b.ctx o.ctx).nextPsn msn o.next pl ack j)).readAhead n o := by
  refine ⟨if o.started ∨ o.kind = .fin then o.msn else (b.ctx o.ctx).nextMsn,
    (o.kind == .eager || o.kind == .rts) && !o.started,
    o.lastAt o.next || decide (512 ≤ (b.ctx o.ctx).unans.length + o.pktPsns o.next), ?_⟩
  simp only [Block.injectNew, at_hand]
  exact if_neg (Nat.not_lt_of_le room)

/-- The next packet goes out under the connection's next PSNs. -/
theorem Block.injectNew_sends (there : b.op n = some o) (unspoilt : o.next ∉ o.spoilt) :
    ∃ (k : Pkt) (msn : BitVec 32) (cs : Tbl Ctx) (ct : Tbl Nat),
      b.injectNew n o j pth = (b.withSent k cs (update1 n (o.sentNext msn j) b.ops) ct).readAhead n o ∧
      sendsNew n o k b (b.withSent k cs (update1 n (o.sentNext msn j) b.ops) ct) := by
  have clean : o.spoilt.contains o.next = false := by simp [unspoilt]
  obtain ⟨msn, opens, ack, sent⟩ := Block.injectNew_eq (n := n) (j := j) (pth := pth) at_hand room
  obtain ⟨k, cs, ct, launched, ⟨-, psn, dst⟩, ⟨path, own⟩, others, -⟩ := Block.send_request
    (b.reqPkt_requests (b.ctx o.ctx) o (b.ctx o.ctx).nextPsn msn o.next pl ack j) b n o.ctx j pl.length
    ((b.ctx o.ctx).sentNext (o.pktPsns o.next) (o.nextUnans n (b.ctx o.ctx).nextPsn msn j) opens b.now)
    (o.sentNext msn j) o false pth
  rw [clean, launched] at sent
  have now : Block.ctx (b.withSent k cs (update1 n (o.sentNext msn j) b.ops) ct) o.ctx = _ := own
  refine ⟨k, msn, cs, ct, sent, rfl, psn, dst, ?_, ?_, ?_, others, fun m hm => lookup_update1_ne hm _ _⟩
  · rw [now]; rfl
  · rw [now]
    exact ⟨_, rfl, fun u => Op.nextUnans_op, Op.nextUnans_psns _ _ _ _ _⟩
  · refine ⟨o.sentNext msn j o, (lookup_update1_self _ _ _).trans (congrArg _ there), rfl, rfl, ?_⟩
    rw [← Op.stride_eq]
    rfl

end

/-- That the connection's use is noted first makes no difference to what is sent. -/
theorem sendsNew_of_usedCtx {n : Nat} {o : Op} {k : Pkt} {b t : Block}
    (h : sendsNew n o k (b.usedCtx o.ctx) t) : sendsNew n o k b t := by
  simp only [sendsNew, Block.ctx_usedCtx] at h
  obtain ⟨waits, psn, dst, next, unans, op, others, ops⟩ := h
  exact ⟨waits, psn, dst, next, unans, op,
    fun c hc => (others c hc).trans (Block.ctx_setCtx_ne _ _ _ hc), ops⟩

/-- What a unicast operation with a new packet to send does. -/
theorem Block.injectUni_sends {b : Block} {n j : Nat} {o : Op} {pth : Path} {pl : Bytes}
    (sends : b.ctxSends o.ctx) (path : b.reqPath (b.ctx o.ctx) = .path j pth) (none_again : o.resend = [])
    (more : o.allSent = false) (at_hand : o.payloadAt o.next = some pl)
    (room : ahead32 (b.ctx o.ctx).nextPsn (b.ctx o.ctx).oldest + o.pktPsns o.next ≤ 1024)
    (there : b.op n = some o) (unspoilt : o.next ∉ o.spoilt) :
    ∃ (k : Pkt) (msn : BitVec 32) (cs : Tbl Ctx) (ct : Tbl Nat),
      b.injectUni n o = (b.withSent k cs (update1 n (o.sentNext msn j) b.ops) ct).readAhead n o ∧
      sendsNew n o k b (b.withSent k cs (update1 n (o.sentNext msn j) b.ops) ct) := by
  have room' : ahead32 ((b.usedCtx o.ctx).ctx o.ctx).nextPsn ((b.usedCtx o.ctx).ctx o.ctx).oldest +
      o.pktPsns o.next ≤ 1024 := by
    rw [Block.ctx_usedCtx]
    exact room
  obtain ⟨k, msn, cs, ct, sent, new⟩ :=
    Block.injectNew_sends (n := n) (j := j) (pth := pth) at_hand room' there unspoilt
  exact ⟨k, msn, cs, ct, (Block.injectUni_new sends path none_again more).trans sent, sendsNew_of_usedCtx new⟩

end Sys2Proof.Machine
end

section
/-! ## Reading the next piece of payload (R142, R158, R213) -/

namespace Sys2Proof.Machine

theorem Block.readAhead_last {b : Block} {n : Nat} {o : Op}
    (h : hasPayload o.kind.code = false ∨ o.lastAt o.next = true) : b.readAhead n o = b := by
  rcases h with bare | last
  · simp [Block.readAhead, bare]
  · simp [Block.readAhead, last]

/-! ### Room in host staging -/

/-- Bytes of payload that an operation has read and not sent. -/
def Op.stagedLen (o : Op) : Nat := (o.staged.map fun e => e.2.length).sum

/-- A sum over some members of a list is no larger than the sum over all of them. -/
theorem sum_map_filter_le (p : α → Bool) (g : α → Nat) (l : List α) :
    ((l.filter p).map g).sum ≤ (l.map g).sum := by
  induction l with
  | nil => exact Nat.le_refl _
  | cons x l ih =>
    rw [List.filter_cons]
    split <;> simp only [List.map_cons, List.sum_cons] <;> omega

/-- Payload that has been sent gives its room back. -/
theorem Op.sentNext_stagedLen_le (o : Op) (msn : BitVec 32) (j : Nat) (x : Op) :
    (o.sentNext msn j x).stagedLen ≤ x.stagedLen :=
  sum_map_filter_le _ _ x.staged

/-- Bytes of payload that are being read for operation `n`. -/
def Block.readingBytes (b : Block) (n : Nat) : Nat :=
  b.dma.foldl (fun k d =>
    match d.purpose with
    | .payload m _ => if m = n then k + d.len else k
    | _ => k) 0

/-- What operation `e` holds of the staging of those that `pick` chooses. -/
def Block.stagedFor (b : Block) (pick : Op → Bool) (e : Nat × Op) : Nat :=
  if pick e.2 then e.2.stagedLen + b.readingBytes e.1 else 0

/-- Staging is the sum of what the operations hold of it. -/
theorem Block.stagedBytes_eq_sum (b : Block) (pick : Op → Bool) :
    b.stagedBytes pick = (b.ops.map (b.stagedFor pick)).sum := by
  have one : ∀ (k : Nat) (e : Nat × Op), (if pick e.2 then k + e.2.stagedLen + b.readingBytes e.1 else k) =
      k + b.stagedFor pick e := by
    intro k e
    unfold Block.stagedFor
    split <;> omega
  have all : b.stagedBytes pick = b.ops.foldl
      (fun k e => if pick e.2 then k + e.2.stagedLen + b.readingBytes e.1 else k) 0 := rfl
  rw [all]
  simp only [one]
  rw [← List.foldl_map, ← List.sum_eq_foldl]

/-- A change of one operation that makes its share no larger makes the sum no larger. -/
theorem sum_update1_le {n : Nat} {f : α → α} {g : Nat × α → Nat} (h : ∀ j v, g (j, f v) ≤ g (j, v))
    (l : List (Nat × α)) : ((update1 n f l).map g).sum ≤ (l.map g).sum := by
  induction l with
  | nil => exact Nat.le_refl _
  | cons e l ih =>
    obtain ⟨j, v⟩ := e
    have head := h j v
    simp only [update1]
    split <;> simp only [List.map_cons, List.sum_cons] <;> omega

theorem Block.stagedBytes_update1_le {b c : Block} {n : Nat} {f : Op → Op} {pick : Op → Bool}
    (ops : c.ops = update1 n f b.ops) (dma : c.dma = b.dma) (same : ∀ o, pick (f o) = pick o)
    (less : ∀ o, (f o).stagedLen ≤ o.stagedLen) : c.stagedBytes pick ≤ b.stagedBytes pick := by
  have shares : c.stagedFor pick = b.stagedFor pick := by
    funext e
    simp only [Block.stagedFor, Block.readingBytes, dma]
  rw [Block.stagedBytes_eq_sum, Block.stagedBytes_eq_sum, ops, shares]
  refine sum_update1_le (fun j o => ?_) _
  have := less o
  simp only [Block.stagedFor, same]
  split <;> omega

/-- Sending a packet takes no room away from the payload that is read next. -/
theorem Block.stagingRoom_withSent {b : Block} {o : Op} {len : Nat} (room : b.stagingRoom o len = true) (n : Nat)
    (k : Pkt) (msn : BitVec 32) (j : Nat) (cs : Tbl Ctx) (ct : Tbl Nat) :
    (b.withSent k cs (update1 n (o.sentNext msn j) b.ops) ct).stagingRoom (o.sentNext msn j o) len = true := by
  have less : ∀ pick : Op → Bool, (∀ x, pick (o.sentNext msn j x) = pick x) →
      (b.withSent k cs (update1 n (o.sentNext msn j) b.ops) ct).stagedBytes pick ≤ b.stagedBytes pick :=
    fun _ same => Block.stagedBytes_update1_le rfl rfl same (o.sentNext_stagedLen_le msn j)
  have link := less (fun p => p.hl == o.hl) fun _ => rfl
  have fn := less (fun p => p.fid == o.fid) fun _ => rfl
  simp only [Block.stagingRoom, Bool.and_eq_true, decide_eq_true_eq] at room ⊢
  obtain ⟨in_link, in_fn⟩ := room
  exact ⟨Nat.le_trans (Nat.add_le_add_right link _) in_link, Nat.le_trans (Nat.add_le_add_right fn _) in_fn⟩

/-! ### The read -/

/-- Noting the use of the region that a key names leaves the key naming it. -/
theorem Block.keyRegion_touched {b : Block} {hl key k : Nat} {r : Reg} (names : b.keyRegion hl key = some (k, r)) :
    (b.setReg k (r.touched b.now)).keyRegion hl key = some (k, r.touched b.now) := by
  unfold Block.keyRegion at names ⊢
  dsimp only at names ⊢
  split at names
  · next good =>
    cases names
    rw [Block.reg_setReg_self]
    exact if_pos good
  · cases names

/-- A read of payload from a cached region that can be issued, and that staging has room for. -/
theorem Block.readPayload_issued {b : Block} {n off len k : Nat} {o : Op} {r : Reg} (there : b.op n = some o)
    (names : b.keyRegion o.hl o.lkey = some (k, r)) (cached : r.spilled = false)
    (room : b.stagingRoom o len = true) (can : b.canIssue r.fid r.pasid (r.dma (o.addr + off)) len = true) :
    b.readPayload n off len = (b.setReg k (r.touched b.now)).dmaIssue r.fid r.pasid .read
      (r.dma (o.addr + off)) len 0 0 (some k) (.payload n off) := by
  have touched : b.touchLocal o.hl o.lkey = (none, b.setReg k (r.touched b.now)) := by
    simp [Block.touchLocal, names, cached, Reg.touched]
  have room' : (b.setReg k (r.touched b.now)).stagingRoom o len = true := room
  have can' : (b.setReg k (r.touched b.now)).canIssue (r.touched b.now).fid (r.touched b.now).pasid
      ((r.touched b.now).dma (o.addr + off)) len = true := can
  simp only [Block.readPayload, there, touched, room', Block.localRead, Block.keyRegion_touched names, can',
    Bool.not_true, Bool.false_eq_true, if_false, if_true]
  rfl

/-- An operation with more payload to send starts the read of its next piece. -/
theorem Block.readAhead_withSent {b : Block} {n k j : Nat} {o : Op} {r : Reg} (there : b.op n = some o)
    (carries : o.kind = .eager ∨ o.kind = .put) (more : o.lastAt o.next = false)
    (names : b.keyRegion o.hl o.lkey = some (k, r)) (cached : r.spilled = false)
    (room : b.stagingRoom o (o.pktLen (o.next + 4096)) = true)
    (can : b.canIssue r.fid r.pasid (r.dma (o.addr + (o.next + 4096))) (o.pktLen (o.next + 4096)) = true)
    (p : Pkt) (msn : BitVec 32) (cs : Tbl Ctx) (ct : Tbl Nat) :
    (b.withSent p cs (update1 n (o.sentNext msn j) b.ops) ct).readAhead n o =
      ((b.withSent p cs (update1 n (o.sentNext msn j) b.ops) ct).setReg k (r.touched b.now)).dmaIssue r.fid
        r.pasid .read (r.dma (o.addr + (o.next + 4096))) (o.pktLen (o.next + 4096)) 0 0 (some k)
        (.payload n (o.next + 4096)) := by
  have payload : hasPayload o.kind.code = true := by rcases carries with h | h <;> rw [h] <;> rfl
  have stride : o.stride = 4096 := by rcases carries with h | h <;> simp [Op.stride, h]
  have there' : (b.withSent p cs (update1 n (o.sentNext msn j) b.ops) ct).op n = some (o.sentNext msn j o) :=
    (lookup_update1_self _ _ _).trans (congrArg _ there)
  rw [Block.readAhead, payload, more, stride]
  exact Block.readPayload_issued (o := o.sentNext msn j o) there' names cached
    (Block.stagingRoom_withSent room n p msn j cs ct) can

end Sys2Proof.Machine
end

section
/-! ## A packet that is sent again (R142) -/

namespace Sys2Proof.Machine

/-- What the sending of PSN `psn` of `o` again, from offset `off` on path `j`, makes of the operation. -/
def Op.sentAgain (o : Op) (psn : BitVec 32) (off j : Nat) (x : Op) : Op :=
  (({ x with resend := o.resend.filter fun q => !(q == psn) } : Op).used off).traced
    fun t => { t with path := j }

/-- The connection with PSN `psn` noted as sent on path `j`. -/
def Ctx.sentAgain (x : Ctx) (psn : BitVec 32) (j now : Nat) : Ctx :=
  ({ x with unans := x.unans.map fun v => if v.psn == psn then { v with path := j } else v } : Ctx).setTimer
    now false

theorem Ctx.sentAgain_psns (x : Ctx) (psn : BitVec 32) (j now : Nat) :
    (x.sentAgain psn j now).unans.map (·.psn) = x.unans.map (·.psn) := by
  simp only [Ctx.sentAgain, Ctx.setTimer, List.map_map]
  refine List.map_congr_left fun v _ => ?_
  simp only [Function.comp]
  split <;> rfl

/-- A PSN that is no part of a GET is sent again by itself. -/
theorem Block.injectAgain_eq {b : Block} {n j : Nat} {o : Op} {psn : BitVec 32} {u : Unans} {pth : Path}
    {pl : Bytes} (at_hand : o.payloadAt u.off = some pl) (single : u.kind ≠ 4) :
    ∃ ack : Bool, b.injectAgain n o psn u j pth =
      (((b.setCtx o.ctx ((b.ctx o.ctx).sentAgain psn j b.now)).modOp n (o.sentAgain psn u.off j)).countSent
        o pl.length true).launch (o.spoilt.contains u.off) o.ctx j pth
        (b.reqPkt (b.ctx o.ctx) o psn u.msn u.off pl ack j) := by
  refine ⟨(o.resend.filter fun q => !(q == psn)).isEmpty || decide (512 ≤ (b.ctx o.ctx).unans.length) ||
    o.lastAt u.off, ?_⟩
  have alone : (u.kind == 4) = false := by simp [single]
  simp only [Block.injectAgain, at_hand, alone, Bool.false_and, Bool.or_false]
  rfl

theorem Block.injectUni_sendsAgain {b : Block} {n j : Nat} {o : Op} {pth : Path} {pl : Bytes}
    {psn : BitVec 32} {rest : List (BitVec 32)} {u : Unans} (sends : b.ctxSends o.ctx)
    (path : b.reqPath (b.ctx o.ctx) = .path j pth) (queued : o.resend = psn :: rest)
    (waits : (b.ctx o.ctx).unans.find? (fun v => v.psn == psn) = some u) (single : u.kind ≠ 4)
    (first : b.resendFirst o.ctx psn = true) (at_hand : o.payloadAt u.off = some pl)
    (unspoilt : u.off ∉ o.spoilt) :
    ∃ (k : Pkt) (cs : Tbl Ctx) (ct : Tbl Nat),
      b.injectUni n o = b.withSent k cs (update1 n (o.sentAgain psn u.off j) b.ops) ct ∧
      k.requests psn (b.ctx o.ctx).remoteFa ∧
      (Tbl.get {} cs o.ctx).unans.map (·.psn) = (b.ctx o.ctx).unans.map (·.psn) ∧
      (Tbl.get {} cs o.ctx).nextPsn = (b.ctx o.ctx).nextPsn ∧
      (∀ d, d ≠ o.ctx → Tbl.get {} cs d = b.ctx d) ∧
      (b.quench = false → b.ctrEvent = [] → Tbl.get 0 ct 517 = min (b.counter 517 + 1) counterMax) := by
  have clean : o.spoilt.contains u.off = false := by simp [unspoilt]
  obtain ⟨ack, sent⟩ := Block.injectAgain_eq (b := b.usedCtx o.ctx) (n := n) (j := j) (psn := psn) (pth := pth)
    at_hand single
  obtain ⟨k, cs, ct, launched, req, ⟨last, own⟩, others, counted⟩ := Block.send_request
    ((b.usedCtx o.ctx).reqPkt_requests ((b.usedCtx o.ctx).ctx o.ctx) o psn u.msn u.off pl ack j)
    (b.usedCtx o.ctx) n o.ctx j pl.length (((b.usedCtx o.ctx).ctx o.ctx).sentAgain psn j (b.usedCtx o.ctx).now)
    (o.sentAgain psn u.off j) o true pth
  rw [clean, launched] at sent
  rw [Block.ctx_usedCtx] at own req
  refine ⟨k, cs, ct, (Block.injectUni_again sends path queued waits first).trans sent, req, ?_, ?_,
    fun d hd => (others d hd).trans (Block.ctx_setCtx_ne _ _ _ hd), counted rfl⟩
  · rw [own]
    exact Ctx.sentAgain_psns ((b.ctx o.ctx).noteUse b.now) psn j b.now
  · rw [own]
    rfl

end Sys2Proof.Machine
end

section
/-! ## A packet of a multicast operation (R41, R115, R118) -/

namespace Sys2Proof.Machine

theorem mkCw_mode (ptr last heat mode tree : Nat) :
    bits (mkCw ptr last heat mode tree).toNat 19 18 = mode % 4 := by
  simp only [mkCw, BitVec.toNat_ofNat, bits]
  omega

theorem mkCw_tree (ptr last heat mode tree : Nat) :
    bits (mkCw ptr last heat mode tree).toNat 31 20 = tree % 4096 := by
  simp only [mkCw, BitVec.toNat_ofNat, bits]
  omega

theorem Pkt.mode_onTree (p : Pkt) {mode : Nat} (h : mode < 4) (tree : Nat) : (p.onTree mode tree).mode = mode :=
  (mkCw_mode 0 0 0 mode tree).trans (Nat.mod_eq_of_lt h)

theorem Pkt.tree_onTree (p : Pkt) (mode : Nat) {tree : Nat} (h : tree < 4096) :
    (p.onTree mode tree).tree = tree :=
  (mkCw_tree 0 0 0 mode tree).trans (Nat.mod_eq_of_lt h)

theorem Op.tree_lt (o : Op) : o.tree < 4096 := Nat.mod_lt _ (by decide)

/-- The number under which the next packet on tree `t` goes (R115). -/
def Block.nextTreePsn (b : Block) (t : Nat) : BitVec 32 := BitVec.ofNat 32 (Tbl.get 0 b.treeSeq t)

/-- The block with the next number of tree `t` given to a packet of operation `n`. -/
def Block.withTreePsn (b : Block) (t n : Nat) : Block :=
  { b with treeSeq := Tbl.set 0 b.treeSeq t (b.nextTreePsn t + 1).toNat
           mcastOut := b.mcastOut ++ [(t, b.nextTreePsn t, n)] }

/-- The operation once its last packet has been sent on its tree. -/
def Op.sentOnTree (x : Op) : Op :=
  { x with started := true, next := x.next + 4096, allSent := true, pktsSent := x.pktsSent + 1,
           staged := erase1 x.next x.staged }

/-- The transport header of the next packet of a multicast operation (R46, R115). -/
def Block.mcastHdr (b : Block) (o : Op) : DataHdr :=
  { kind := 8, part := (b.ep (bits (fld o.desc 48 8) 29 16)).partition,
    dst := mkFa 0 (bits (fld o.desc 48 8) 13 0), src := mkFa b.nodeId (bits (fld o.desc 48 8) 29 16),
    psn := b.nextTreePsn o.tree, offset := o.next }

/-- The next packet of a multicast operation, on its tree (R41). -/
def Block.mcastPkt (b : Block) (o : Op) (payload : Bytes) : Pkt :=
  (dataPkt (b.mcastHdr o) o.block payload).onTree 1 o.tree

/-- A tree's route says nothing of the bytes behind the route field. -/
theorem Pkt.onTree_rest (p : Pkt) (mode tree : Nat) : (p.onTree mode tree).rest = p.rest := rfl

theorem Block.mcastPkt_requests (b : Block) (o : Op) (payload : Bytes) :
    (b.mcastPkt o payload).requests (b.nextTreePsn o.tree) (b.mcastHdr o).dst :=
  have built := dataPkt_requests (h := b.mcastHdr o) (show 8 < 64 by decide) rfl rfl o.block payload
  Pkt.requests_of_rest built (Pkt.onTree_rest _ _ _)

/-- The last packet of a multicast operation goes out from the root of its tree. -/
theorem Block.injectMcast_last {b : Block} {n : Nat} {o : Op} {pl : Bytes} (more : o.allSent = false)
    (valid : sprueValid (Tbl.get 0 b.sprue o.tree) = true) (root : sprueRoot (Tbl.get 0 b.sprue o.tree) = true)
    (member : b.member (b.ep (bits (fld o.desc 48 8) 29 16)).partition b.nodeId = true)
    (few : (b.mcastOut.filter fun m => m.1 == o.tree).length < 4) (at_hand : o.payloadAt o.next = some pl)
    (unspoilt : o.next ∉ o.spoilt) (last : o.lastAt o.next = true) :
    ∃ ct : Tbl Nat, b.injectMcast n o =
      (b.withTreePsn o.tree n).withSent (b.mcastPkt o pl) b.ctxs (update1 n Op.sentOnTree b.ops) ct := by
  have clean : o.spoilt.contains o.next = false := by simp [unspoilt]
  obtain ⟨ct, counted⟩ := Block.countSent_countersOnly ((b.withTreePsn o.tree n).modOp n Op.sentOnTree) o
    pl.length false
  have sent : b.injectMcast n o = (((b.withTreePsn o.tree n).modOp n Op.sentOnTree).countSent o pl.length
      false).inject (b.mcastPkt o pl) := by
    simp only [Block.injectMcast, more, valid, root, member, Nat.not_le_of_lt few, at_hand, clean, last,
      Bool.not_true, Bool.or_self, Bool.false_eq_true, if_false, if_true]
    rfl
  refine ⟨ct, ?_⟩
  rw [sent, counted, Block.inject_request (b.mcastPkt_requests o pl)]
  rfl

theorem exec_reqInject (n : Nat) (s : State) :
    exec (.reqInject n) s = runR (fun b => if b.live then b.injectOp n else b) s := rfl

/-- The outcome of REQ_INJECT where the block that it leaves is quiet. -/
theorem exec_reqInject_live {s : State} {n : Nat} (live : s.live = true) {b : Block}
    (sent : s.injectOp n = b) (quiet : b.quiet) : exec (.reqInject n) s = .next { s with toBlock := b } :=
  (exec_reqInject n s).trans (runR_settled ((if_pos live).trans sent) quiet)

end Sys2Proof.Machine
end

section
/-! ## Injection of requests -/

open Sys2Proof Sys2Proof.Machine

/-- Settles O8: each kind of packet is built for its PSN, waits at the injection point, and leaves its connection
and its operation brought up to date. -/
theorem requestInject : Obligations.RequestInject := by
  unfold Obligations.RequestInject
  refine ⟨?last, ?more, ?again, ?mcast⟩
  case last =>
    intro s n o j pth pl live quiet there uni none_again unsent sends path at_hand unspoilt whole room
    obtain ⟨k, msn, cs, ct, sent, new⟩ :=
      Block.injectUni_sends sends path none_again unsent at_hand room there unspoilt
    rw [Block.readAhead_last whole] at sent
    exact ⟨_, k, exec_reqInject_live live ((Block.injectOp_uni there uni).trans sent) quiet, new, rfl⟩
  case more =>
    intro s n o j pth pl k r live quiet there carries none_again unsent sends path at_hand unspoilt more room
      names cached staging can
    have uni : o.kind ≠ .mcast := by rcases carries with h | h <;> simp [h]
    have one : o.pktPsns o.next = 1 := by rcases carries with h | h <;> simp [Op.pktPsns, h]
    obtain ⟨p, msn, cs, ct, sent, new⟩ :=
      Block.injectUni_sends sends path none_again unsent at_hand (one ▸ room) there unspoilt
    rw [Block.readAhead_withSent there carries more names cached staging can] at sent
    exact ⟨_, p, _, exec_reqInject_live live ((Block.injectOp_uni there uni).trans sent) quiet, new, rfl, rfl, rfl,
      rfl, rfl, rfl, rfl, rfl⟩
  case again =>
    intro s n o j pth pl psn rest u live quiet there uni queued sends path waits single first at_hand unspoilt
    obtain ⟨-, calm⟩ := Block.live_iff.mp live
    obtain ⟨k, cs, ct, sent, ⟨-, is_psn, dst⟩, psns, next, others, counted⟩ :=
      Block.injectUni_sendsAgain (n := n) sends path queued waits single first at_hand unspoilt
    refine ⟨_, k, exec_reqInject_live live ((Block.injectOp_uni there uni).trans sent) quiet, rfl, is_psn, dst,
      psns, next, ⟨o.sentAgain psn u.off j o, (lookup_update1_self _ _ _).trans (congrArg _ there), ?_, rfl, rfl⟩,
      counted calm, others, fun m hm => lookup_update1_ne hm _ _, rfl⟩
    simp [Op.sentAgain, Op.traced, Op.used, queued]
  case mcast =>
    intro s n o pl live quiet there mcast unsent valid root member few at_hand unspoilt last
    obtain ⟨ct, sent⟩ := Block.injectMcast_last (n := n) unsent valid root member few at_hand unspoilt last
    obtain ⟨-, psn, -⟩ := s.mcastPkt_requests o pl
    refine ⟨_, s.mcastPkt o pl, exec_reqInject_live live ((Block.injectOp_mcast there mcast).trans sent) quiet, rfl,
      Pkt.mode_onTree _ (by decide) _, Pkt.tree_onTree _ _ o.tree_lt, psn, ?_, ?_,
      ⟨o.sentOnTree, (lookup_update1_self _ _ _).trans (congrArg _ there), rfl, rfl, rfl⟩,
      fun m hm => lookup_update1_ne hm _ _, rfl⟩
    · rw [psn]; rfl
    · rw [psn]; exact Tbl.get_set_self _ _ _ _
end

section
/-! ## Reserved fields of a written word (R225) -/

namespace Sys2Proof.Machine

theorem bits_testBit (n msb lsb i : Nat) :
    (bits n msb lsb).testBit i = (decide (i < msb + 1 - lsb) && n.testBit (lsb + i)) := by
  rw [bits, Nat.testBit_mod_two_pow, Nat.testBit_div_two_pow, Nat.add_comm i]

/-- A field is 0 where each of its bits is. -/
theorem bits_eq_zero_iff {n msb lsb : Nat} :
    bits n msb lsb = 0 ↔ ∀ i, lsb ≤ i → i ≤ msb → bit n i = false := by
  constructor
  · intro clear i low high
    have kept := bits_testBit n msb lsb (i - lsb)
    rw [clear, Nat.zero_testBit, Nat.add_sub_cancel' low, decide_eq_true (by omega), Bool.true_and] at kept
    exact kept.symm
  · intro clear
    refine Nat.eq_of_testBit_eq fun i => ?_
    rw [bits_testBit, Nat.zero_testBit, Bool.and_eq_false_imp, decide_eq_true_eq]
    exact fun inside => clear (lsb + i) (by omega) (by omega)

theorem field_testBit (msb lsb i : Nat) :
    (field msb lsb).testBit i = (decide (lsb ≤ i) && decide (i ≤ msb)) := by
  rw [field, Nat.testBit_mul_two_pow, Nat.testBit_two_pow_sub_one]
  by_cases low : lsb ≤ i
  · simp only [low, decide_true, Bool.true_and, decide_eq_decide]; omega
  · simp [low]

theorem land_field_eq_zero {n msb lsb : Nat} (clear : bits n msb lsb = 0) : n &&& field msb lsb = 0 := by
  refine Nat.eq_of_testBit_eq fun i => ?_
  rw [Nat.testBit_and, field_testBit, Nat.zero_testBit]
  by_cases inside : lsb ≤ i ∧ i ≤ msb
  · rw [show n.testBit i = false from bits_eq_zero_iff.mp clear i inside.1 inside.2, Bool.false_and]
  · rw [← Bool.decide_and, decide_eq_false inside, Bool.and_false]

/-- A word whose two reserved fields are 0 has no reserved bit set. -/
theorem land_mask_eq_zero {n m l m' l' : Nat} (clear : bits n m l = 0) (clear' : bits n m' l' = 0)
    (apart : mask [(m, l), (m', l')] = field m l ||| field m' l') : n &&& mask [(m, l), (m', l')] = 0 := by
  rw [apart, Nat.and_or_distrib_left, land_field_eq_zero clear, land_field_eq_zero clear']
  rfl

@[simp] theorem Block.recordIf_false (b : Block) (fid off : Nat) : b.recordIf false fid off = b := rfl

end Sys2Proof.Machine
end

section
/-! ## Commands that change one host link -/

namespace Sys2Proof.Machine

/-- From `s` to `t` host link `hl` becomes `x`, and nothing else changes. -/
def linkBecomes (hl : Nat) (x : HostLink) (s t : Block) : Prop :=
  t.link hl = x ∧ (∀ n, n ≠ hl → t.link n = s.link n) ∧ t = { s with links := t.links }

theorem Block.setLink_becomes (b : Block) (hl : Nat) (x : HostLink) :
    linkBecomes hl x b (b.setLink hl x) :=
  ⟨Block.link_setLink_self _ _ _, fun _ h => Block.link_setLink_ne _ _ _ h, rfl⟩

theorem linkBecomes.trans {hl : Nat} {x y : HostLink} {r s t : Block} (h : linkBecomes hl x r s)
    (h' : linkBecomes hl y s t) : linkBecomes hl y r t := by
  obtain ⟨-, others, only⟩ := h
  obtain ⟨is_y, others', only'⟩ := h'
  refine ⟨is_y, fun n hn => (others' n hn).trans (others n hn), ?_⟩
  rw [only', only]

/-- The last of two records that a host link is given stays. -/
theorem Block.setLink_setLink_becomes (b : Block) (hl : Nat) (x y : HostLink) :
    linkBecomes hl y b ((b.setLink hl x).setLink hl y) :=
  (b.setLink_becomes hl x).trans (Block.setLink_becomes _ hl y)

/-- A next state that differs from `s` in host link `hl` alone, told part by part. -/
theorem linkBecomes.outcome {o : Host.Outcome State Fault Refusal} {s : State} {b : Block} {hl : Nat}
    {x : HostLink} (next : o = .next { s with toBlock := b }) (h : linkBecomes hl x s.toBlock b) :
    ∃ t : State, o = .next t ∧ t.link hl = x ∧ (∀ n, n ≠ hl → t.link n = s.link n) ∧
      t = { s with links := t.links } := by
  obtain ⟨is_x, others, frame⟩ := h
  exact ⟨_, next, is_x, others, congrArg (fun b : Block => { s with toBlock := b }) frame⟩

/-- The outcome of a command that makes block `b`, and raises nothing. -/
theorem run_eq {f : Block → Block} {s : State} {b : Block} (h : f s.toBlock = b) :
    run f s = .next { s with toBlock := b } := by
  rw [run, h]

end Sys2Proof.Machine
end

section
/-! ## Q_WAKE and TG_REBIND (R217, R233, R237) -/

namespace Sys2Proof.Machine

/-- A poll that falls due is noted in its queue; one that the bucket cannot pay for is counted in 834 (R253). -/
theorem Block.fallsDue_eq (b : Block) (q : Nat) : ∃ ct : Tbl Nat,
    b.fallsDue q = { b.setQueue q { b.queue q with pollAt := some b.now } with counters := ct } ∧
      ∀ c, c ≠ 834 → Tbl.get 0 ct c = b.counter c := by
  rw [Block.fallsDue, Block.modQueue_eq]
  generalize due : b.setQueue q { b.queue q with pollAt := some b.now } = d
  have counted : ∀ c, d.counter c = b.counter c := by subst due; exact fun _ => rfl
  dsimp only
  split
  · exact ⟨d.counters, rfl, fun c _ => counted c⟩
  · obtain ⟨ct, eq⟩ := d.count_countersOnly 834 1
    refine ⟨ct, eq, fun c other => ?_⟩
    have unchanged := d.counter_count_ne 1 other
    rw [eq] at unchanged
    exact unchanged.trans (counted c)

/-- The queue, back at its base interval, with its poll due at `now` (R233). -/
def Queue.woken (x : Queue) (now : Nat) : Queue := { x with interval := x.pollBase, pollAt := some now }

/-- Q_WAKE of a queue of the function that reads descriptors. -/
theorem Block.wakeQueue_own {b : Block} {fid q : Nat} (small : q < 2 ^ 15) (live : (b.queue q).live = true)
    (own : (b.queue q).fid = fid) (reads : (b.queue q).ty < 2) : ∃ ct : Tbl Nat,
      b.wakeQueue fid q = { (b.setQueue q { b.queue q with interval := (b.queue q).pollBase }).setQueue q
        ((b.queue q).woken b.now) with counters := ct } ∧
      ∀ c, c ≠ 834 → Tbl.get 0 ct c = b.counter c := by
  obtain ⟨ct, eq, others⟩ :=
    (b.setQueue q { b.queue q with interval := (b.queue q).pollBase }).fallsDue_eq q
  rw [Block.queue_setQueue_self] at eq
  have unreserved : decide (2 ^ 15 ≤ q) = false := decide_eq_false (Nat.not_le_of_lt small)
  refine ⟨ct, Eq.trans ?_ eq, others⟩
  simp only [Block.wakeQueue, unreserved, Block.recordIf_false, Nat.mod_eq_of_lt small]
  exact if_pos ⟨live, own, reads⟩

theorem exec_qWake_up {s : State} {hl : HostId} {f : FnId} (live : s.live = true)
    (up : s.fnUp (fidOf hl f) = true) (v : BitVec 32) {b : Block}
    (woken : s.wakeQueue (fidOf hl f) v.toNat = b) (quiet : b.quiet) :
    exec (.qWake hl f v) s = .next { s with toBlock := b } :=
  runR_settled ((if_pos (by rw [live, up]; rfl)).trans woken) quiet

/-! ### TG_REBIND -/

/-- The status of a TG_REBIND of an endpoint that the PF has: whether the partition is allowed (R237). -/
def Block.rebindStatus (b : Block) (hl part : Nat) : Nat :=
  if bit (b.quota hl 16) part then stOk else stFenced

/-- TG_REBIND of an endpoint that the PF has. -/
theorem Block.rebind_owned {b : Block} {hl v : Nat} (go : bit v 31 = true) (low : bits v 15 14 = 0)
    (high : bits v 30 20 = 0) (inside : b.epInRange hl (bits v 13 0) = true)
    (live : (b.ep (bits v 13 0)).live = true) : b.rebind hl v =
      (if bit (b.quota hl 16) (bits v 19 16) then
        b.setEp (bits v 13 0) { b.ep (bits v 13 0) with partition := bits v 19 16 }
      else b).setLink hl { b.link hl with rebindStatus := b.rebindStatus hl (bits v 19 16) } := by
  have unreserved : v &&& mask [(15, 14), (30, 20)] = 0 := land_mask_eq_zero low high (by decide)
  have told : stFenced ≠ stOk := by decide
  cases allowed : bit (b.quota hl 16) (bits v 19 16) <;>
    simp [Block.rebind, Block.rebindStatus, unreserved, go, inside, live, allowed, told]

theorem exec_tgRebind_up {s : State} {hl : HostId} (live : s.live = true)
    (up : s.fnUp (fidOf hl 0) = true) (v : BitVec 32) {b : Block} (rebound : s.rebind hl v.toNat = b)
    (quiet : b.quiet) : exec (.tgRebind hl v) s = .next { s with toBlock := b } :=
  runR_settled ((if_pos (by rw [live, up]; rfl)).trans rebound) quiet

end Sys2Proof.Machine
end

section
/-! ## The mailbox (R353) -/

namespace Sys2Proof.Machine

/-- The link with what a write of `v` to `MBX_CTRL` stores there. -/
def HostLink.withCtrl (l : HostLink) (v : Nat) : HostLink :=
  { l with mbxCtrl := BitVec.ofNat 32 (v &&& mask [(1, 1), (15, 8), (28, 16)]) }

/-- The first `n` bytes of the request that the link's mailbox holds. -/
def HostLink.request (l : HostLink) (n : Nat) : Bytes := (List.range n).map fun i => Tbl.get 0 l.mbxReq i

/-- The reply to a request of a length that cannot be. -/
def malformedReply : Bytes := zeros 19 ++ toLe 1 stMalformed ++ zeros 12

/-- The link with `msg` as the reply in its mailbox. -/
def HostLink.replied (l : HostLink) (msg : Bytes) : HostLink :=
  { l with mbxBusy := false, mbxDone := true, mbxReply := msg, mbxReplyLen := msg.length }

/-- Interrupts on completion are asked for by bit 1 of what was written. -/
theorem HostLink.withCtrl_interrupt (l : HostLink) {v : Nat} (h : bit v 1 = false) :
    bit (l.withCtrl v).mbxCtrl.toNat 1 = false := by
  rw [HostLink.withCtrl, BitVec.toNat_ofNat, bit, Nat.testBit_mod_two_pow, Nat.testBit_and,
    show v.testBit 1 = false from h]
  rfl

theorem Block.mbxAnswer_silent {b : Block} {hl : Nat} (h : bit (b.link hl).mbxCtrl.toNat 1 = false)
    (msg : Bytes) : b.mbxAnswer hl msg = b.setLink hl ((b.link hl).replied msg) := by
  simp only [Block.mbxAnswer, h, Bool.false_eq_true, if_false]
  rfl

theorem Block.mbxWrite_busy {b : Block} {hl v : Nat} (go : bit v 0 = true) (busy : (b.link hl).mbxBusy = true) :
    b.mbxWrite hl v = b.setLink hl { b.link hl with mbxOverrun := true } :=
  if_pos ⟨go, busy⟩

section
variable {b : Block} {hl v : Nat} (go : bit v 0 = true) (free : (b.link hl).mbxBusy = false)
  (low : bits v 7 2 = 0) (high : bits v 31 29 = 0)
include go free low high

/-- `GO` at a mailbox that is free: the length decides between the queue of requests and an answer at once. -/
theorem Block.mbxWrite_free : b.mbxWrite hl v =
    if bits v 28 16 < 32 ∨ 4096 < bits v 28 16 then
      (b.setLink hl ((b.link hl).withCtrl v)).mbxAnswer hl malformedReply
    else { (b.setLink hl ((b.link hl).withCtrl v)).setLink hl { (b.link hl).withCtrl v with mbxBusy := true } with
      idpQ := b.idpQ ++ [⟨.mailbox hl, (b.link hl).request (bits v 28 16), false⟩] } := by
  have unreserved : v &&& mask [(7, 2), (31, 29)] = 0 := land_mask_eq_zero low high (by decide)
  have not_busy : ¬(bit v 0 = true ∧ (b.link hl).mbxBusy = true) := by simp [free]
  rw [Block.mbxWrite, if_neg not_busy]
  simp only [go, unreserved, Block.modLink_eq, Block.link_setLink_self, bne_self_eq_false, Block.recordIf_false,
    Bool.not_true, Bool.false_eq_true, if_false]
  rfl

theorem Block.mbxWrite_queued (least : 32 ≤ bits v 28 16) (most : bits v 28 16 ≤ 4096) : b.mbxWrite hl v =
    { (b.setLink hl ((b.link hl).withCtrl v)).setLink hl { (b.link hl).withCtrl v with mbxBusy := true } with
      idpQ := b.idpQ ++ [⟨.mailbox hl, (b.link hl).request (bits v 28 16), false⟩] } :=
  (Block.mbxWrite_free go free low high).trans (if_neg (by omega))

theorem Block.mbxWrite_malformed (silent : bit v 1 = false)
    (length : bits v 28 16 < 32 ∨ 4096 < bits v 28 16) : b.mbxWrite hl v =
      (b.setLink hl ((b.link hl).withCtrl v)).setLink hl (((b.link hl).withCtrl v).replied malformedReply) := by
  have kept : bit ((b.setLink hl ((b.link hl).withCtrl v)).link hl).mbxCtrl.toNat 1 = false := by
    rw [Block.link_setLink_self]; exact HostLink.withCtrl_interrupt _ silent
  rw [Block.mbxWrite_free go free low high, if_pos length, Block.mbxAnswer_silent kept, Block.link_setLink_self]

end

theorem exec_mailboxGo_up {s : State} {hl : HostId} {v : BitVec 32} (live : s.live = true)
    (up : s.fnUp (fidOf hl 0) = true) (go : bit v.toNat 0 = true) {b : Block}
    (written : s.mbxWrite hl v.toNat = b) (quiet : b.quiet) :
    exec (.mailboxGo hl v) s = .next { s with toBlock := b } :=
  runR_settled ((if_pos (by rw [live, up, go]; rfl)).trans written) quiet

end Sys2Proof.Machine
end

section
/-! ## Actions of single registers -/

open Sys2Proof Sys2Proof.Machine

/-- Settles O32: each write sets no reserved bit, so nothing is recorded, and it acts on the record of its
queue, endpoint or host link. -/
theorem registerActions : Obligations.RegisterActions := by
  unfold Obligations.RegisterActions
  refine ⟨?wake, ?rebound, ?fenced, ?queued, ?overrun, ?malformed⟩
  case wake =>
    intro s hl f v live quiet up small there own reads
    obtain ⟨ct, woken, others⟩ := Block.wakeQueue_own small there own reads
    exact ⟨_, exec_qWake_up live up v woken quiet, Block.queue_setQueue_self _ _ _,
      fun q hq => (Block.queue_setQueue_ne _ _ _ hq).trans (Block.queue_setQueue_ne _ _ _ hq), others, rfl⟩
  case rebound =>
    rintro s hl v _ _ live quiet up go low high rfl rfl inside there allowed
    have rebound := Block.rebind_owned go low high inside there
    simp only [allowed, if_true, Block.rebindStatus] at rebound
    exact ⟨_, exec_tgRebind_up live up v rebound quiet, Block.ep_setEp_self _ _ _,
      fun k hk => Block.ep_setEp_ne _ _ _ hk, Block.link_setLink_self _ _ _,
      fun n hn => Block.link_setLink_ne _ _ _ hn, rfl⟩
  case fenced =>
    rintro s hl v _ _ live quiet up go low high rfl rfl inside there fenced
    have answered := Block.rebind_owned go low high inside there
    simp only [fenced, Bool.false_eq_true, if_false, Block.rebindStatus] at answered
    exact (s.setLink_becomes hl _).outcome (exec_tgRebind_up live up v answered quiet)
  case queued =>
    intro s hl v live quiet up go free low high least most
    have written := Block.mbxWrite_queued go free low high least most
    obtain ⟨held, others, -⟩ := s.setLink_setLink_becomes hl ((s.link hl).withCtrl v.toNat)
      { (s.link hl).withCtrl v.toNat with mbxBusy := true }
    exact ⟨_, exec_mailboxGo_up live up go written quiet, congrArg (·.mbxBusy) held, rfl, others, rfl⟩
  case overrun =>
    intro s hl v live quiet up go busy low high
    exact (s.setLink_becomes hl _).outcome (exec_mailboxGo_up live up go (Block.mbxWrite_busy go busy) quiet)
  case malformed =>
    intro s hl v live quiet up go free low high length
    have clear := bits_eq_zero_iff.mp low
    have silent : bit v.toNat 1 = false := clear 1 (by decide) (by decide)
    have low' : bits v.toNat 7 2 = 0 := bits_eq_zero_iff.mpr fun i hi => clear i (by omega)
    have written := Block.mbxWrite_malformed go free low' high silent length
    obtain ⟨t, next, held, rest⟩ :=
      (s.setLink_setLink_becomes hl _ _).outcome (exec_mailboxGo_up live up go written quiet)
    refine ⟨t, next, ?_⟩
    rw [held]
    exact ⟨rfl, rfl, rfl, rest⟩
end

section
/-! ## A host link comes up, and its functions (R208, R212, R425) -/

namespace Sys2Proof.Machine

/-- The link after PERST_Hn_N has risen: it trains where its clock domain runs. -/
def HostLink.released (l : HostLink) (runs : Bool) : HostLink :=
  { l with perstHigh := true, st := if runs then .training else .inReset }

theorem Block.perstRises_becomes {b : Block} {n : Nat} (running : b.phase = .running)
    (there : b.present n = true) (waits : (b.link n).st = .inReset) :
    linkBecomes n ((b.link n).released (b.domainRuns (16 + n))) b (b.perstRises n) := by
  have high := b.setLink_becomes n { b.link n with perstHigh := true }
  have rises : b.perstRises n = (b.setLink n { b.link n with perstHigh := true }).leaveDetect n := if_pos running
  rw [rises]
  generalize raised : b.setLink n { b.link n with perstHigh := true } = c at high
  have there' : c.present n = true := raised ▸ there
  have same : c.domainRuns (16 + n) = b.domainRuns (16 + n) := raised ▸ rfl
  obtain ⟨held, -, -⟩ := id high
  cases runs : b.domainRuns (16 + n) with
  | true =>
    have trains : c.leaveDetect n = c.setLink n { b.link n with perstHigh := true, st := .training } := by
      simp only [Block.leaveDetect, there', same, runs, held, waits, Block.modLink_eq, beq_self_eq_true,
        Bool.and_self, if_true]
    rw [trains]
    exact high.trans (c.setLink_becomes n _)
  | false =>
    have stays : c.leaveDetect n = c := by
      simp only [Block.leaveDetect, same, runs, Bool.and_false, Bool.false_eq_true, if_false]
    rw [stays, HostLink.released, if_neg Bool.false_ne_true, ← waits]
    exact high

theorem Block.cfgUp_of_fnUp {b : Block} {fid : Nat} (running : b.phase = .running) (up : b.fnUp fid = true) :
    b.cfgUp fid = true := by
  simp only [Block.cfgUp, running, Block.fnThere_of_fnUp up, beq_self_eq_true, Bool.and_self]

/-- VF Enable where it is clear. -/
theorem Block.setVfs_enables {b : Block} {hl count : Nat} (some_vf : count ≠ 0)
    (off : (b.link hl).vfEnable = false) :
    b.setVfs hl count = b.setLink hl { b.link hl with vfEnable := true, numVfs := count } := by
  simp only [Block.setVfs, some_vf, off, Bool.false_eq_true, if_false, Block.modLink_eq]

theorem exec_dlActive_trained {s : State} {hl : HostId} {lanes rate : Nat} (running : s.phase = .running)
    (trains : (s.link hl).st = .training) (locked : s.locked (8 + hl.val) = true)
    (runs : s.domainRuns (16 + hl.val) = true)
    (settles : linkSettles (linkWidth s.bifCode hl) lanes rate = true) :
    exec (.dlActive hl lanes rate) s = .next { s with
      toBlock := s.setLink hl { s.link hl with st := .dlActive, width := lanes, rate := rate } } :=
  run_eq (if_pos ⟨running, trains, locked, runs, settles⟩)

theorem exec_configReady_active {s : State} {hl : HostId} (active : (s.link hl).st = .dlActive) :
    exec (.configReady hl) s = .next { s with toBlock := s.setLink hl { s.link hl with ready := true } } :=
  run_eq (if_pos active)

theorem exec_vfEnable_up {s : State} {hl : HostId} {k : FnId} (running : s.phase = .running) (quiet : s.quiet)
    (up : s.fnUp (fidOf hl 0) = true) (some_vf : k.val ≠ 0) (off : (s.link hl).vfEnable = false) :
    exec (.vfEnable hl k) s = .next { s with
      toBlock := s.setLink hl { s.link hl with vfEnable := true, numVfs := k } } :=
  runR_settled ((if_pos (Block.cfgUp_of_fnUp running up)).trans (Block.setVfs_enables some_vf off)) quiet

theorem exec_vfReady_waits {s : State} {hl : HostId} {k : FnId} (there : s.vfExists hl k = true)
    (live : s.fnLive (fidOf hl k) = true) (waits : (s.fn (fidOf hl k)).ready = false) :
    exec (.vfReady hl k) s = .next { s with
      toBlock := (s.setFn (fidOf hl k) { s.fn (fidOf hl k) with ready := true }).emit
        (.readiness hl (fidOf hl k)) } :=
  run_eq (if_pos (by rw [there, live, waits]; rfl))

end Sys2Proof.Machine
end

section
/-! ## Invalidation of a translation (R204) -/

namespace Sys2Proof.Machine

/-- A range invalidated without a fresh translation has none (log 99). -/
theorem HostLink.mem_noXlat_invalidated (l : HostLink) (x : Xlat) : x ∈ (l.invalidated (x, false)).noXlat :=
  List.mem_append_right _ (List.mem_singleton_self x)

/-- The link after invalidation `w`, which alone waited, has been done. -/
def HostLink.served (l : HostLink) (w : Xlat × Bool) : HostLink := { l with invWait := [] }.invalidated w

@[simp] theorem Block.link_unstash (b : Block) (mine : Arrival → Bool) (n : Nat) :
    (b.unstash mine).link n = b.link n := rfl

/-- Where no request is under way, the only invalidation that waits is done, and what waited for a translation
is delivered again. -/
theorem Block.serveInv_idle {b : Block} {n : Nat} {w : Xlat × Bool} (alone : (b.link n).invWait = [w])
    (idle : b.dma = []) : b.serveInv n =
      (((b.setLink n { b.link n with invWait := [] }).setLink n ((b.link n).served w)).unstash
        fun a => a.awaits == .translation).emit (.invDone n w.1) := by
  have free : (b.dma.any fun d => w.1.meets d.fid d.pasid d.addr d.len) = false := by rw [idle]; rfl
  simp only [Block.serveInv, alone, free, List.filter_cons, List.filter_nil, Bool.not_false, if_true,
    Bool.false_eq_true, if_false, List.isEmpty_cons, List.foldl_cons, List.foldl_nil, Block.modLink_eq,
    Block.link_unstash, Block.link_setLink_self]
  rfl

/-- An invalidation that comes alone, with no request under way, is done at once. -/
theorem Block.invalidate_idle {b : Block} {hl : Nat} (alone : (b.link hl).invWait = []) (idle : b.dma = [])
    (x : Xlat) (remapped : Bool) : ∃ c : Block, linkBecomes hl ((b.link hl).served (x, remapped)) b c ∧
      b.invalidate hl x remapped = (c.unstash fun a => a.awaits == .translation).emit (.invDone hl x) := by
  have arrived : b.invalidate hl x remapped =
      (b.setLink hl { b.link hl with invWait := [(x, remapped)] }).serveInv hl := by
    rw [Block.invalidate, Block.modLink_eq, alone]; rfl
  have waits := b.setLink_becomes hl { b.link hl with invWait := [(x, remapped)] }
  generalize queued : b.setLink hl { b.link hl with invWait := [(x, remapped)] } = q at arrived waits
  obtain ⟨held, -, -⟩ := id waits
  have served := Block.serveInv_idle (b := q) (n := hl) (w := (x, remapped)) (by rw [held])
    (by subst queued; exact idle)
  have same : (q.link hl).served (x, remapped) = (b.link hl).served (x, remapped) := by rw [held]; rfl
  rw [same] at served
  exact ⟨_, waits.trans (q.setLink_setLink_becomes hl _ _), arrived.trans served⟩

theorem exec_atsInvalidation_up {s : State} {hl : HostId} {f : AtsScope} {addr len : Nat} {remapped : Bool}
    (running : s.phase = .running) (up : s.fnUp (fidOf hl f.fn) = true) {b : Block}
    (served : s.invalidate hl ⟨fidOf hl f.fn, f.pasid.map (·.toNat), addr, len⟩ remapped = b) :
    exec (.atsInvalidation hl f addr len remapped) s = .next { s with toBlock := b } :=
  run_eq ((if_pos (Block.cfgUp_of_fnUp running up)).trans served)

end Sys2Proof.Machine
end

section
/-! ## Host links -/

open Sys2Proof Sys2Proof.Machine

/-- Settles O47: each step of a link's coming up writes the link's record, a VF's readiness the record of the VF,
and an invalidation with nothing in flight is served on its arrival. That VF `NumVFs` exists (log 173) and that the
range then has no translation (log 99) is the model's reading. -/
theorem hostLinkStates : Obligations.HostLinkStates := by
  unfold Obligations.HostLinkStates
  refine ⟨?perst, ?dlActive, ?configReady, ?vfEnable, ?vfReady, ?invalidation⟩
  case perst =>
    intro s hl running there waits
    exact (Block.perstRises_becomes running there waits).outcome rfl
  case dlActive =>
    intro s hl lanes rate running trains locked runs settles
    exact (s.setLink_becomes hl _).outcome (exec_dlActive_trained running trains locked runs settles)
  case configReady =>
    intro s hl active
    exact (s.setLink_becomes hl _).outcome (exec_configReady_active active)
  case vfEnable =>
    intro s hl k running quiet up some_vf off
    exact (s.setLink_becomes hl _).outcome (exec_vfEnable_up running quiet up some_vf off)
  case vfReady =>
    intro s hl k there live waits
    exact ⟨_, exec_vfReady_waits there live waits, Block.fn_setFn_self _ _ _,
      fun g hg => Block.fn_setFn_ne _ _ _ hg, rfl, rfl⟩
  case invalidation =>
    rintro s hl f addr len _ running rfl up alone idle
    obtain ⟨c, ⟨held, others, frame⟩, served⟩ := Block.invalidate_idle alone idle
      ⟨fidOf hl f.fn, f.pasid.map (·.toNat), addr, len⟩ false
    refine ⟨_, exec_atsInvalidation_up running up served, ?_⟩
    have out : c.out = s.out := by rw [frame]
    refine ⟨congrArg (· ++ [_]) out, ?_, congrArg HostLink.invWait held, others, ?_⟩
    · exact held.symm ▸ HostLink.mem_noXlat_invalidated _ _
    · rw [frame]; rfl
end

section
/-! ## Group 23: the reaction masks of every block (R226 to R228) -/

namespace Sys2Proof.Machine

theorem Tbl.get_drop (d : α) (p : Nat → Bool) (t : Tbl α) (k : Nat) :
    Tbl.get d (Tbl.drop p t) k = if p k then d else Tbl.get d t k := by
  induction t with
  | nil => simp [Tbl.drop, Tbl.get]
  | cons e t ih =>
    obtain ⟨j, v⟩ := e
    rw [Tbl.drop] at ih
    rw [Tbl.drop, List.filter_cons]
    by_cases here : j = k
    · subst here
      cases dropped : p j <;> simp [Tbl.get, ih, dropped]
    · split <;> simp [Tbl.get, here, ih]

/-- What is listed in `u` stands over what `t` holds. -/
theorem Tbl.get_foldr_put (d : α) (t u : Tbl α) (k : Nat) :
    Tbl.get d (List.foldr (fun e t => Tbl.put t e.1 e.2) t u) k = Tbl.get (Tbl.get d t k) u k := by
  induction u with
  | nil => rfl
  | cons e u ih =>
    obtain ⟨j, v⟩ := e
    rw [List.foldr_cons, Tbl.get]
    split
    · next here => rw [here, Tbl.get_put_self]
    · next other => rw [Tbl.get_put_ne d _ v (Ne.symm other), ih]

theorem Block.reactOf_applyReact (b : Block) (blk k : Nat) {src : Nat} (small : src < 64) :
    (b.applyReact blk).reactOf k src = if k = blk then b.reactShOf k src else b.reactOf k src := by
  have owner : (k * 64 + src) / 64 = k := by omega
  simp only [Block.reactOf, Block.reactShOf, Block.applyReact, Tbl.get_foldr_put, Tbl.get_drop, owner,
    Bool.not_eq_true', beq_eq_false_iff_ne, beq_iff_eq, ne_eq]
  by_cases same : k = blk
  · simp only [same, not_true_eq_false, if_true, if_false]
  · simp only [same, not_false_eq_true, if_true, if_false]

/-- Applying the shadows of blocks writes active masks alone. -/
theorem Block.foldl_applyReact_frame (l : List Nat) (b : Block) : ∃ m,
    l.foldl (fun b k => b.applyReact k) b = { b with react := m } := by
  induction l generalizing b with
  | nil => exact ⟨b.react, rfl⟩
  | cons blk l ih =>
    obtain ⟨m, rest⟩ := ih (b.applyReact blk)
    exact ⟨m, rest⟩

theorem Block.reactOf_foldl_applyReact (l : List Nat) (b : Block) (k : Nat) {src : Nat} (small : src < 64) :
    (l.foldl (fun b k => b.applyReact k) b).reactOf k src =
      if k ∈ l then b.reactShOf k src else b.reactOf k src := by
  induction l generalizing b with
  | nil => rfl
  | cons blk l ih =>
    have shadow : (b.applyReact blk).reactShOf k src = b.reactShOf k src := rfl
    rw [List.foldl_cons, ih, shadow, Block.reactOf_applyReact b blk k small]
    by_cases first : k = blk <;> by_cases later : k ∈ l <;> simp [first, later]

/-- Of the blocks whose strobe stands over, those that are not gated apply their shadows (R228). -/
theorem Block.wakeReact_spec (b : Block) : ∃ m,
    b.wakeReact = { b with react := m, reactDue := b.reactDue.filter b.blkGated } ∧
      ∀ k src, k ∈ b.reactDue → src < 64 →
        b.wakeReact.reactOf k src = if b.blkGated k then b.reactOf k src else b.reactShOf k src := by
  obtain ⟨m, frame⟩ := Block.foldl_applyReact_frame (b.reactDue.filter fun k => !b.blkGated k)
    { b with reactDue := b.reactDue.filter b.blkGated }
  refine ⟨m, frame, fun k src due small => ?_⟩
  refine (Block.reactOf_foldl_applyReact _ _ k small).trans ?_
  have woken : k ∈ b.reactDue.filter (fun k => !b.blkGated k) ↔ b.blkGated k = false := by
    simp [due]
  cases gated : b.blkGated k <;> simp only [woken, gated] <;> rfl

/-- Where every block whose strobe stands over is gated, none of them applies it. -/
theorem Block.wakeReact_gated {b : Block} (gated : ∀ k ∈ b.reactDue, b.blkGated k = true) :
    b.wakeReact = b := by
  have woken : b.reactDue.filter (fun k => !b.blkGated k) = [] := by simpa using gated
  have kept : b.reactDue.filter b.blkGated = b.reactDue := List.filter_eq_self.mpr gated
  simp only [Block.wakeReact, woken, kept, List.foldl_nil]

/-- Where all else is quiet, a strobe that stands over in gated blocks alone waits for them to be woken. -/
theorem Block.settle_gated {b : Block} (quiet : b.quiet) {due : List Nat}
    (gated : ∀ k ∈ due, b.blkGated k = true) (m : Tbl Nat) :
    Block.settle { b with react := m, reactDue := due } = { b with react := m, reactDue := due } := by
  obtain ⟨reacts, lost, reports, places, reads, mnet, -, pauses, plca⟩ := quiet
  have unpaused : b.loadWait.all (fun w => decide (w.1 < pauseKey)) = true := by
    simpa only [List.all_eq_true, decide_eq_true_eq] using pauses
  generalize waits : ({ b with react := m, reactDue := due } : Block) = c
  have stays : c.wakeReact = c := Block.wakeReact_gated (by subst waits; exact gated)
  have drained : c.drain drainFuel = c := Block.drain_none (waits ▸ reacts) (waits ▸ lost) _
  subst waits
  simp only [Block.settle, stays, ite_self, drained, unpaused, reports, places, reads, mnet, plca,
    List.isEmpty_nil, Bool.false_and, Bool.false_eq_true, if_true, if_false]

/-- `UPDATE` of the service processor with group 23 alone. -/
theorem Block.updateSp_react (b : Block) : b.updateSp 0x800000 = b.strobeReact := by
  have groups : (bitList 32 0x800000).filter (fun g => decide (2 ≤ g) && decide (g < 30)) = [23] := by decide
  simp only [Block.updateSp, groups]
  rfl

theorem Block.spWrites_of_clockOn {b : Block} (running : b.phase = .running) (calm : b.quench = false)
    (clocked : b.clockOn clkSvc = true) : b.spWrites = true := by
  simp only [Block.spWrites, running, calm, clocked, beq_self_eq_true, Bool.not_false, Bool.and_self]

theorem exec_update_sp {s : State} {groups : BitVec 32} (writes : s.spWrites = true) {b : Block}
    (strobed : s.updateSp groups.toNat = b) (settled : b.settle = b) :
    exec (.update .sp groups) s = .next { s with toBlock := b } := by
  have updated : (if s.spWrites then s.updateSp groups.toNat else s.toBlock) = b := (if_pos writes).trans strobed
  calc exec (.update .sp groups) s
      = .next { s with toBlock := (if s.spWrites then s.updateSp groups.toNat else s.toBlock).settle } := rfl
    _ = .next { s with toBlock := b } := by rw [updated, settled]

end Sys2Proof.Machine
end

section
/-! ## Group 0: the page of a function (R227, R228) -/

namespace Sys2Proof.Machine

theorem Block.flushLost_none {b : Block} {fid : Nat} (none_lost : (b.fn fid).lost = 0) : b.flushLost fid = b := by
  rw [Block.flushLost]
  split
  · rfl
  · exact if_neg fun some_lost => some_lost.1 none_lost

/-- The function with the shadows of its page active. -/
def Fn.strobed (f : Fn) : Fn := { f with evtQueue := f.evtQueueSh, evtEnable := f.evtEnableSh }

/-- A strobe of a page without a parity error and without events to report. -/
theorem Block.strobePage_clean {b : Block} {fid : Nat} (skip : (b.fn fid).skip = [])
    (spoilt : (b.fn fid).spoilt = []) (none_lost : (b.fn fid).lost = 0) :
    b.strobePage fid = b.setFn fid (b.fn fid).strobed := by
  have page : b.strobePage fid = (b.setFn fid (b.fn fid).strobed).flushLost fid := by
    simp only [Block.strobePage, Block.modFn_eq, Fn.strobed, skip, spoilt, List.contains_nil, Bool.or_self,
      Bool.false_eq_true, if_false]
  rw [page, Block.flushLost_none (by rw [Block.fn_setFn_self]; exact none_lost)]

/-- Bit 0 is what every function may set. -/
theorem Block.updateFn_page (b : Block) (fid : Nat) : b.updateFn fid 1 = b.strobePage fid := by
  have page : bit 1 0 = true := by decide
  have no_tenant : bit 1 1 = false := by decide
  by_cases pf : fidFn fid = 0 <;> simp [Block.updateFn, pf, page, no_tenant]

/-- Bit 1 is dropped and recorded where a VF sets it (R228). -/
theorem Block.updateFn_vf_tenant (b : Block) {fid : Nat} (vf : fidFn fid ≠ 0) :
    b.updateFn fid 2 = b.badAccess fid 0x18 1 true := by
  simp [Block.updateFn, vf, bit, Block.recordIf, Block.refuseWrite]

theorem exec_update_fn (hl : HostId) (f : FnId) (groups : BitVec 32) (s : State) :
    exec (.update (.fn hl f) groups) s = runR (fun b =>
      if b.live && b.fnUp (fidOf hl f) then b.updateFn (fidOf hl f) groups.toNat else b) s := rfl

theorem Block.updateFn_up {b : Block} {fid : Nat} (live : b.live = true) (up : b.fnUp fid = true) (v : Nat) :
    (if b.live && b.fnUp fid then b.updateFn fid v else b) = b.updateFn fid v :=
  if_pos (by rw [live, up]; rfl)

end Sys2Proof.Machine
end

section
/-! ## The update strobe -/

open Sys2Proof Sys2Proof.Machine

/-- Settles O31: a strobe of a page writes the record of its function, a strobe of group 23 the masks of
every block that is not gated, and bit 1 from a VF is recorded as a bad access alone. -/
theorem registerUpdate : Obligations.RegisterUpdate := by
  unfold Obligations.RegisterUpdate
  refine ⟨?page, ?masks, ?dropped⟩
  case page =>
    intro s hl f live quiet up skip spoilt none_lost
    rw [exec_update_fn]
    refine runR_setFn quiet ((Block.updateFn_up live up _).trans ?_)
    exact (Block.updateFn_page _ _).trans (Block.strobePage_clean skip spoilt none_lost)
  case masks =>
    intro s running calm clocked quiet
    obtain ⟨m, frame, masks⟩ := Block.wakeReact_spec { s.toBlock with reactDue := List.range 136 }
    have gated : ∀ k, k ∈ (List.range 136).filter s.blkGated ↔ k < 136 ∧ s.blkGated k = true := by
      simp only [List.mem_filter, List.mem_range, implies_true]
    have settled := Block.settle_gated quiet (fun k due => ((gated k).mp due).2) m
    refine ⟨_, exec_update_sp (Block.spWrites_of_clockOn running calm clocked)
      ((Block.updateSp_react _).trans frame) settled, fun k src block small => ?_, gated, rfl⟩
    exact frame ▸ masks k src (List.mem_range.mpr block) small
  case dropped =>
    intro s hl f vf live quiet up muted clear
    rw [exec_update_fn]
    have ⟨_, calm⟩ := Block.live_iff.mp live
    have refused := Block.updateFn_vf_tenant s.toBlock (fid := fidOf hl f) (by rwa [fidFn_fidOf])
    obtain ⟨t, next, flag, recorded, others, frame⟩ := runR_badAccess quiet (fidLink_fidOf hl f) calm muted
      (f := fun b => if b.live && b.fnUp (fidOf hl f) then b.updateFn (fidOf hl f) 2 else b)
      ((Block.updateFn_up live up _).trans refused)
    refine ⟨t, next, flag, ?_, others, frame⟩
    rw [recorded, Fn.recordBad, clear]
    rfl
end
